-- ==== Sys2Proof/Word.lean ====
section
/-! DEFINITION. The bit vectors of the block: spec/00_scope.md section 6 (every number is unsigned, bit 0 is the
least significant bit). -/

namespace Sys2Proof

/-- A byte: an operand field of a request (R70), a wire command (R74) or a data byte (R83). -/
abbrev Byte := BitVec 8

/-- A host request word, 21 bits (R70). -/
abbrev HostWord := BitVec 21

/-- A DDRAM address as the shadow cursor holds it, 7 bits (R17). -/
abbrev Address := BitVec 7

end Sys2Proof
end

