-- ==== Sys2Proof/Config.lean ====
section
/-! DEFINITION. What an implementation of the block fixes (spec/00_scope.md R5) and the free values: the eight
settings (R10 to R13) as a record, the OPEN parameter RESET_SETTINGS, and the values the spec leaves open.
The times of R5 are in Machine/Timing.lean. -/

namespace Sys2Proof

/-- Data-transfer width: R13, `data_trans_bits`, a field that "can hold only 4 or 8". -/
inductive TransferWidth where
  | four
  | eight
  deriving DecidableEq, Repr

/-- Line count: R13, `display_lines`, 1 or 2. -/
inductive LineCount where
  | one
  | two
  deriving DecidableEq, Repr

/-- Character dot-matrix size: R13, `dot_matrix`, F5x7 or F5x10. -/
inductive DotMatrix where
  | f5x7
  | f5x10
  deriving DecidableEq, Repr

/-- The eight settings fields of R10 (the source's DisplaySettings), grouped by control register:
ENTRY_MODE (R11), DISPLAY_CTRL (R12), FUNCTION_SET (R13). -/
structure Settings where
  acAutoIncrease : Bool
  displayFollowCursor : Bool
  displayOn : Bool
  cursorVisible : Bool
  cursorBlink : Bool
  dataTransBits : TransferWidth
  displayLines : LineCount
  dotMatrix : DotMatrix
  deriving DecidableEq, Repr

namespace Config

/-- RESET_SETTINGS (R5, R24) is OPEN in the spec: any legal record. `State.resetWith` takes it as an argument;
this is the one value the model names for `State.reset`, every bit of the three control registers zero.
DESIGN CHOICE, unsafe: log entry 4. No statement rests on it. -/
def resetSettings : Settings where
  acAutoIncrease := false
  displayFollowCursor := false
  displayOn := false
  cursorVisible := false
  cursorBlink := false
  dataTransBits := .four
  displayLines := .one
  dotMatrix := .f5x7

/-- Free value: what `adv` gives for an address outside the valid set V. The spec gives "any value; no claim may
rest on them" (93_implementation_defined.md U2). Safe: log entry 6. -/
opaque advOutsideRows : Address → Address

/-- Free value: what `ret` gives for an address outside V (U2). Safe: log entry 6. -/
opaque retOutsideRows : Address → Address

/-- Free value: which of the eight data lines is the `i`-th bound one when `w` lines are bound and `w` is neither
4 nor 8. R45 gives `line(w, i)` for 4 and 8 only, and a custom wiring is out of the spec's model (U14).
Safe: log entry 7. -/
opaque customLine : Nat → Nat → Fin 8

end Config

end Sys2Proof
end

