-- ==== Sys2Proof/Syntax.lean ====
section
/-! DEFINITION. The instructions: one constructor per row of spec/opcode_table.json (R71 and R75 to R83), and the
forms in which one reaches the block.

The 22 HOST rows carry their operand fields as raw bytes (R70, R72: "unsigned numbers with no extension"): which
values are legal is checked when the operation runs. An ignored operand field is not part of the instruction.
The 12 WIRE rows are bytes of the bus: a wire command is sent by `send_command` (R74, R89), a data byte by
`send_data` (R83). -/

namespace Sys2Proof

/-- R71 (HOST) and R75 to R83 (WIRE, WIRE_DATA): one constructor per row of the opcode table, in its order. -/
inductive Instr where
  | sendBits (value width : Byte)
  | sendByte (value : Byte)
  | sendCommand (value : Byte)
  | sendData (value : Byte)
  | clear
  | home
  | setAcAutoIncrease (flag : Byte)
  | setDisplayFollowCursor (flag : Byte)
  | setDisplayOn (flag : Byte)
  | setCursorVisible (flag : Byte)
  | setCursorBlink (flag : Byte)
  | setDataTransBits (width : Byte)
  | setDisplayLines (lines : Byte)
  | setDotMatrix (font : Byte)
  | setPosition (row column : Byte)
  | moveLeft
  | moveRight
  | moveUp
  | moveDown
  | pinsInit
  | init
  | clearLine (row : Byte)
  | clearDisplay
  | returnHome
  | entryModeSet (id s : Bool)
  | displayControl (d c b : Bool)
  | cursorLeft
  | cursorRight
  | displayLeft
  | displayRight
  | functionSet (dl n f : Bool)
  | setCgramAddr (a : BitVec 6)
  | setDdramAddr (a : Address)
  | dataByte (v : Byte)
  deriving DecidableEq, Repr

/-- What the host presents to the block, by the format of the opcode table's rows: a 21-bit request word (R70), or
a byte for the bus in one of the pseudo-operation forms of R89, with RS = 0 (a wire command) or RS = 1 (a data
byte). The register select is not part of the byte itself. -/
inductive Request where
  | host (w : HostWord)
  | wireCommand (b : Byte)
  | wireData (b : Byte)
  deriving DecidableEq, Repr

end Sys2Proof
end

