-- ==== Sys2Proof/WellFormed.lean ====
section
/-! DEFINITION. Well-formed instructions: every operand has a value R72 lists as legal for it. An instruction with
another value can still be encoded and presented; the block answers InvalidArgument (R72's last column). The
widths of the operand fields are in the types of Syntax.lean. -/

namespace Sys2Proof

/-- R72, the static part of the operand table. The transfer width of SEND_BITS must equal `S.bound_data` when it
runs; here it must be one of the legal widths of R5 (WIDTHS). Wire rows have no illegal field value. -/
def Instr.wellFormed : Instr → Bool
  | .sendBits _ width => width == 4 || width == 8
  | .sendByte _ => true
  | .sendCommand _ => true
  | .sendData _ => true
  | .clear => true
  | .home => true
  | .setAcAutoIncrease flag => flag == 0 || flag == 1
  | .setDisplayFollowCursor flag => flag == 0 || flag == 1
  | .setDisplayOn flag => flag == 0 || flag == 1
  | .setCursorVisible flag => flag == 0 || flag == 1
  | .setCursorBlink flag => flag == 0 || flag == 1
  | .setDataTransBits width => width == 4 || width == 8
  | .setDisplayLines lines => lines == 1 || lines == 2
  | .setDotMatrix font => font == 0 || font == 1
  | .setPosition row column => decide (row.toNat ≤ 1) && decide (column.toNat ≤ 39)
  | .moveLeft => true
  | .moveRight => true
  | .moveUp => true
  | .moveDown => true
  | .pinsInit => true
  | .init => true
  | .clearLine row => decide (row.toNat ≤ 1)
  | .clearDisplay => true
  | .returnHome => true
  | .entryModeSet _ _ => true
  | .displayControl _ _ _ => true
  | .cursorLeft => true
  | .cursorRight => true
  | .displayLeft => true
  | .displayRight => true
  | .functionSet _ _ _ => true
  | .setCgramAddr _ => true
  | .setDdramAddr _ => true
  | .dataByte _ => true

end Sys2Proof
end

