-- ==== Sys2Proof/Decode.lean ====
section
/-! DEFINITION. Encodings (spec/30_encoding.md): the host request word (R70, R71), the wire command bytes (R74 to
R82), a total decoder that rejects by name, and the encoder written from the same tables. -/

namespace Sys2Proof

/-! ## Wire bytes (R75 to R82) -/

/-- A Boolean as the number 0 or 1 in a byte (00_scope.md section 6). -/
def bitByte (b : Bool) : Byte := if b then 1 else 0

/-- R75. -/
def clearDisplayByte : Byte := 0x01

/-- R76. -/
def returnHomeByte : Byte := 0x02

/-- R77: `0x04 | (ID << 1) | S`. -/
def entryModeByte (id s : Bool) : Byte := 0x04 ||| (bitByte id <<< 1) ||| bitByte s

/-- R78: `0x08 | (D << 2) | (C << 1) | B`. -/
def displayControlByte (d c b : Bool) : Byte :=
  0x08 ||| (bitByte d <<< 2) ||| (bitByte c <<< 1) ||| bitByte b

/-- R79: `0x10 | (SC << 3) | (RL << 2)`. -/
def cursorShiftByte (sc rl : Bool) : Byte := 0x10 ||| (bitByte sc <<< 3) ||| (bitByte rl <<< 2)

/-- R80: `0x20 | (DL << 4) | (N << 3) | (F << 2)`. -/
def functionSetByte (dl n f : Bool) : Byte :=
  0x20 ||| (bitByte dl <<< 4) ||| (bitByte n <<< 3) ||| (bitByte f <<< 2)

/-- R81: `CGRAM(a) = 0x40 | a[5:0]`. -/
def cgramByte (a : BitVec 6) : Byte := 0x40 ||| a.setWidth 8

/-- R82: `DDRAM(a) = 0x80 | a[6:0]`. -/
def ddramByte (a : Address) : Byte := 0x80 ||| a.setWidth 8

/-! ## The request word (R70) -/

/-- The operation selector, bits 20:16. -/
def opField (w : HostWord) : BitVec 5 := w.extractLsb' 16 5

/-- The first operand, bits 15:8. -/
def aField (w : HostWord) : Byte := w.extractLsb' 8 8

/-- The second operand, bits 7:0. -/
def bField (w : HostWord) : Byte := w.extractLsb' 0 8

/-- The word with the given fields, `(op << 16) | (a << 8) | b` (R88). -/
def hostWord (op : BitVec 5) (a b : Byte) : HostWord :=
  (op.setWidth 21 <<< 16) ||| (a.setWidth 21 <<< 8) ||| b.setWidth 21

/-! ## Decoding -/

/-- Why a request decodes to no row of the opcode table. -/
inductive DecodeError where
  /-- R73: `op` in 0x16 to 0x1F selects no operation. -/
  | reservedSelector (op : BitVec 5)
  /-- R74, R85: a byte in no command class (0x00, 0x03, or a shift or function-set byte with bit 1 or 0 set). -/
  | unclassedWireByte (b : Byte)
  deriving DecidableEq, Repr

/-- R71: the operation of a request word. The fields a row marks `-` are ignored, whatever they hold. -/
def decodeHost (w : HostWord) : Except DecodeError Instr :=
  match (opField w).toNat with
  | 0x00 => .ok (.sendBits (aField w) (bField w))
  | 0x01 => .ok (.sendByte (aField w))
  | 0x02 => .ok (.sendCommand (aField w))
  | 0x03 => .ok (.sendData (aField w))
  | 0x04 => .ok .clear
  | 0x05 => .ok .home
  | 0x06 => .ok (.setAcAutoIncrease (aField w))
  | 0x07 => .ok (.setDisplayFollowCursor (aField w))
  | 0x08 => .ok (.setDisplayOn (aField w))
  | 0x09 => .ok (.setCursorVisible (aField w))
  | 0x0A => .ok (.setCursorBlink (aField w))
  | 0x0B => .ok (.setDataTransBits (aField w))
  | 0x0C => .ok (.setDisplayLines (aField w))
  | 0x0D => .ok (.setDotMatrix (aField w))
  | 0x0E => .ok (.setPosition (aField w) (bField w))
  | 0x0F => .ok .moveLeft
  | 0x10 => .ok .moveRight
  | 0x11 => .ok .moveUp
  | 0x12 => .ok .moveDown
  | 0x13 => .ok .pinsInit
  | 0x14 => .ok .init
  | 0x15 => .ok (.clearLine (aField w))
  | _ => .error (.reservedSelector (opField w))

/-- R79: the four CURSOR_DISPLAY_SHIFT bytes by SC and RL. -/
def shiftInstr (sc rl : Bool) : Instr :=
  match sc, rl with
  | false, false => .cursorLeft
  | false, true => .cursorRight
  | true, false => .displayLeft
  | true, true => .displayRight

/-- R74: a wire command is recognised by its highest set bit; the fixed bits of its class must hold. -/
def decodeWireCommand (b : Byte) : Except DecodeError Instr :=
  if b.getLsbD 7 then .ok (.setDdramAddr (b.extractLsb' 0 7))
  else if b.getLsbD 6 then .ok (.setCgramAddr (b.extractLsb' 0 6))
  else if b.getLsbD 5 then
    if b.getLsbD 1 || b.getLsbD 0 then .error (.unclassedWireByte b)
    else .ok (.functionSet (b.getLsbD 4) (b.getLsbD 3) (b.getLsbD 2))
  else if b.getLsbD 4 then
    if b.getLsbD 1 || b.getLsbD 0 then .error (.unclassedWireByte b)
    else .ok (shiftInstr (b.getLsbD 3) (b.getLsbD 2))
  else if b.getLsbD 3 then .ok (.displayControl (b.getLsbD 2) (b.getLsbD 1) (b.getLsbD 0))
  else if b.getLsbD 2 then .ok (.entryModeSet (b.getLsbD 1) (b.getLsbD 0))
  else if b.getLsbD 1 then
    if b.getLsbD 0 then .error (.unclassedWireByte b) else .ok .returnHome
  else if b.getLsbD 0 then .ok .clearDisplay
  else .error (.unclassedWireByte b)

/-- The instruction a request stands for, or why it is none. -/
def decode : Request → Except DecodeError Instr
  | .host w => decodeHost w
  | .wireCommand b => decodeWireCommand b
  | .wireData b => .ok (.dataByte b)

/-! ## Encoding -/

/-- R71, R75 to R83: the request that stands for an instruction. Ignored operand fields are encoded as 0 (R87). -/
def encode : Instr → Request
  | .sendBits value width => .host (hostWord 0x00 value width)
  | .sendByte value => .host (hostWord 0x01 value 0)
  | .sendCommand value => .host (hostWord 0x02 value 0)
  | .sendData value => .host (hostWord 0x03 value 0)
  | .clear => .host (hostWord 0x04 0 0)
  | .home => .host (hostWord 0x05 0 0)
  | .setAcAutoIncrease flag => .host (hostWord 0x06 flag 0)
  | .setDisplayFollowCursor flag => .host (hostWord 0x07 flag 0)
  | .setDisplayOn flag => .host (hostWord 0x08 flag 0)
  | .setCursorVisible flag => .host (hostWord 0x09 flag 0)
  | .setCursorBlink flag => .host (hostWord 0x0A flag 0)
  | .setDataTransBits width => .host (hostWord 0x0B width 0)
  | .setDisplayLines lines => .host (hostWord 0x0C lines 0)
  | .setDotMatrix font => .host (hostWord 0x0D font 0)
  | .setPosition row column => .host (hostWord 0x0E row column)
  | .moveLeft => .host (hostWord 0x0F 0 0)
  | .moveRight => .host (hostWord 0x10 0 0)
  | .moveUp => .host (hostWord 0x11 0 0)
  | .moveDown => .host (hostWord 0x12 0 0)
  | .pinsInit => .host (hostWord 0x13 0 0)
  | .init => .host (hostWord 0x14 0 0)
  | .clearLine row => .host (hostWord 0x15 row 0)
  | .clearDisplay => .wireCommand clearDisplayByte
  | .returnHome => .wireCommand returnHomeByte
  | .entryModeSet id s => .wireCommand (entryModeByte id s)
  | .displayControl d c b => .wireCommand (displayControlByte d c b)
  | .cursorLeft => .wireCommand (cursorShiftByte false false)
  | .cursorRight => .wireCommand (cursorShiftByte false true)
  | .displayLeft => .wireCommand (cursorShiftByte true false)
  | .displayRight => .wireCommand (cursorShiftByte true true)
  | .functionSet dl n f => .wireCommand (functionSetByte dl n f)
  | .setCgramAddr a => .wireCommand (cgramByte a)
  | .setDdramAddr a => .wireCommand (ddramByte a)
  | .dataByte v => .wireData v

/-! ## Words of the opcode table -/

/-- The format of a lone bus byte. The table's word holds no register select, so a byte of a command class is read
with RS = 0 and any other byte, which no command row can stand for, with RS = 1.
DESIGN CHOICE, safe: log entry 9. -/
def wireRequest (b : Byte) : Request :=
  match decodeWireCommand b with
  | .ok _ => .wireCommand b
  | .error _ => .wireData b

/-- The request that a word of the opcode table stands for: a row of at most 8 bits is a bus byte, a wider one a
21-bit request word in three bytes, whose bits 23 to 21 do not exist. DESIGN CHOICE, safe: log entry 9. -/
def tableRequest (nbits w : Nat) : Option Request :=
  if nbits ≤ 8 then
    if w < 2 ^ 8 then some (wireRequest (BitVec.ofNat 8 w)) else none
  else if nbits ≤ 24 then
    if w < 2 ^ 21 then some (.host (BitVec.ofNat 21 w)) else none
  else none

/-- The instruction the decoder reads from a word numbered as spec/opcode_table.json numbers it. -/
def decodeTableWord (nbits w : Nat) : Option Instr :=
  match tableRequest nbits w with
  | some r => (decode r).toOption
  | none => none

/-! ## Text (R71, R87) -/

/-- The mnemonic of R71, or the name of the table's wire row. -/
def mnemonic : Instr → String
  | .sendBits _ _ => "SEND_BITS"
  | .sendByte _ => "SEND_BYTE"
  | .sendCommand _ => "SEND_COMMAND"
  | .sendData _ => "SEND_DATA"
  | .clear => "CLEAR"
  | .home => "HOME"
  | .setAcAutoIncrease _ => "SET_AC_AUTO_INCREASE"
  | .setDisplayFollowCursor _ => "SET_DISPLAY_FOLLOW_CURSOR"
  | .setDisplayOn _ => "SET_DISPLAY_ON"
  | .setCursorVisible _ => "SET_CURSOR_VISIBLE"
  | .setCursorBlink _ => "SET_CURSOR_BLINK"
  | .setDataTransBits _ => "SET_DATA_TRANS_BITS"
  | .setDisplayLines _ => "SET_DISPLAY_LINES"
  | .setDotMatrix _ => "SET_DOT_MATRIX"
  | .setPosition _ _ => "SET_POSITION"
  | .moveLeft => "MOVE_LEFT"
  | .moveRight => "MOVE_RIGHT"
  | .moveUp => "MOVE_UP"
  | .moveDown => "MOVE_DOWN"
  | .pinsInit => "PINS_INIT"
  | .init => "INIT"
  | .clearLine _ => "CLEAR_LINE"
  | .clearDisplay => "CLEAR_DISPLAY"
  | .returnHome => "RETURN_HOME"
  | .entryModeSet _ _ => "ENTRY_MODE_SET"
  | .displayControl _ _ _ => "DISPLAY_CONTROL"
  | .cursorLeft => "CURSOR_LEFT"
  | .cursorRight => "CURSOR_RIGHT"
  | .displayLeft => "DISPLAY_LEFT"
  | .displayRight => "DISPLAY_RIGHT"
  | .functionSet _ _ _ => "FUNCTION_SET"
  | .setCgramAddr _ => "SET_CGRAM_ADDR"
  | .setDdramAddr _ => "SET_DDRAM_ADDR"
  | .dataByte _ => "DATA_BYTE"

/-- The operands of an instruction as numbers, in the order R87 writes them. -/
def operandsOf : Instr → List Nat
  | .sendBits a b => [a.toNat, b.toNat]
  | .setPosition a b => [a.toNat, b.toNat]
  | .sendByte a => [a.toNat]
  | .sendCommand a => [a.toNat]
  | .sendData a => [a.toNat]
  | .setAcAutoIncrease a => [a.toNat]
  | .setDisplayFollowCursor a => [a.toNat]
  | .setDisplayOn a => [a.toNat]
  | .setCursorVisible a => [a.toNat]
  | .setCursorBlink a => [a.toNat]
  | .setDataTransBits a => [a.toNat]
  | .setDisplayLines a => [a.toNat]
  | .setDotMatrix a => [a.toNat]
  | .clearLine a => [a.toNat]
  | .entryModeSet i s => [i.toNat, s.toNat]
  | .displayControl d c b => [d.toNat, c.toNat, b.toNat]
  | .functionSet l n f => [l.toNat, n.toNat, f.toNat]
  | .setCgramAddr a => [a.toNat]
  | .setDdramAddr a => [a.toNat]
  | .dataByte v => [v.toNat]
  | .clear => []
  | .home => []
  | .moveLeft => []
  | .moveRight => []
  | .moveUp => []
  | .moveDown => []
  | .pinsInit => []
  | .init => []
  | .clearDisplay => []
  | .returnHome => []
  | .cursorLeft => []
  | .cursorRight => []
  | .displayLeft => []
  | .displayRight => []

/-- R87: an operation written as its mnemonic followed by its operands in decimal, separated by commas. -/
def assembly (i : Instr) : String :=
  match operandsOf i with
  | [] => mnemonic i
  | ops => mnemonic i ++ " " ++ ", ".intercalate (ops.map toString)

end Sys2Proof
end

