-- ==== Sys2Proof/Machine/State.lean ====
section
/-! DEFINITION. The state of the block: the record S of spec/10_state.md R10, the request port it is driven through
and what an observer has seen of it (R7, R8); its reset (R24, R230); the reasons a step can stop. -/

namespace Sys2Proof.Machine

/-- The eleven bus signals (R7, R19). -/
inductive Signal where
  | rs | rw | e | d0 | d1 | d2 | d3 | d4 | d5 | d6 | d7
  deriving DecidableEq, Repr

/-- The level last written to a signal: 0, 1, or X, "a value it knows nothing of, not as 0" (R19). -/
inductive Level where
  | low
  | high
  | unknown
  deriving DecidableEq, Repr

/-- `S.level[sig]` for the eleven signals (R10, R19). -/
structure PinLevels where
  rs : Level
  rw : Level
  e : Level
  d0 : Level
  d1 : Level
  d2 : Level
  d3 : Level
  d4 : Level
  d5 : Level
  d6 : Level
  d7 : Level
  deriving DecidableEq, Repr

/-- Every level X: after reset (R24) and after PINS_INIT (R180). -/
def PinLevels.allUnknown : PinLevels where
  rs := .unknown
  rw := .unknown
  e := .unknown
  d0 := .unknown
  d1 := .unknown
  d2 := .unknown
  d3 := .unknown
  d4 := .unknown
  d5 := .unknown
  d6 := .unknown
  d7 := .unknown

/-- The observable events (R7): a pin write, and a wait of at least `us` microseconds. -/
inductive Event where
  | pin (sig : Signal) (level : Bool)
  | wait (us : Nat)
  deriving DecidableEq, Repr

/-- The two errors (R200). -/
inductive ErrorKind where
  | invalidArgument
  | invalidState
  deriving DecidableEq, Repr

/-- The result of a request (R7, R200). -/
inductive Result where
  | ok
  | invalidArgument
  | invalidState
  deriving DecidableEq, Repr

/-- The state: R10's record, then the request port and the observation (the model's own fields: log entries 1
and 3). -/
structure State where
  /-- The eight settings, R11 to R13. -/
  settings : Settings
  /-- `S.pins_ready`, R14. -/
  pinsReady : Bool
  /-- `S.write_ready`, R15. -/
  writeReady : Bool
  /-- `S.read_ready`, R16. -/
  readReady : Bool
  /-- `S.cursor`, R17. -/
  cursor : Address
  /-- `S.bound_data`, 0..8, R18. -/
  boundData : Fin 9
  /-- `S.level`, R19. -/
  level : PinLevels
  /-- The requests the host will present, in order, the next one first (R6, R21). -/
  requests : List Request
  /-- Every event emitted since reset, oldest first: "the concatenation of the traces of its steps" (R7). -/
  trace : List Event
  /-- The result of every request since reset, oldest first (R7, R200). -/
  results : List Result
  deriving DecidableEq, Repr

/-- R24, R230: the state after reset, for any RESET_SETTINGS. -/
def State.resetWith (settings : Settings) : State where
  settings := settings
  pinsReady := false
  writeReady := false
  readReady := false
  cursor := 0x00
  boundData := 0
  level := .allUnknown
  requests := []
  trace := []
  results := []

/-- The state after reset with the settings the model names (DESIGN CHOICE, unsafe: log entry 4). -/
def State.reset : State := State.resetWith Config.resetSettings

/-- The block never faults: "Nothing in the block *faults* in the sense of a sticky hardware fault, and nothing
*gets stuck*" (93_implementation_defined.md Part 1; R214). No constructor, so nothing raises one. Safe: log entry
18. -/
inductive Fault
  deriving DecidableEq, Repr

/-- Why a step has no meaning. -/
inductive Refusal where
  /-- Raised by exec's arm of an instruction the model gives no meaning yet (none now). Safe: nothing can be proved
  of a run that does it. -/
  | notModelled (mnemonic : String)
  /-- Raised by MOVE_UP with `S.write_ready` true and the cursor on row 0: R167, "The spec gives the case no
  meaning: a model must refuse it". Safe: log entry 11. -/
  | moveUpOnRow0
  /-- Raised by MOVE_DOWN with `S.write_ready` true and the cursor on row 1: R168, "refused as in rule R167".
  Safe: log entry 11. -/
  | moveDownOnRow1
  /-- Raised by the pseudo-operation PRINT_LINE for a text of more than 40 characters: R191, "the spec gives
  `n > 40` no meaning". DESIGN CHOICE among U6's treatments, safe: log entry 12. -/
  | printLineTooLong
  deriving DecidableEq, Repr

/-- What a meaning answers. -/
abbrev Answer := Host.Outcome State Fault Refusal

end Sys2Proof.Machine
end

