-- ==== Sys2Proof/Machine/Timing.lean ====
section
/-! DEFINITION. The times of spec/00_scope.md R5, in microseconds. Every one is a minimum (R7, R209). -/

namespace Sys2Proof.Machine

/-- T_EH, E high (R111). -/
def tEh : Nat := 1

/-- T_ES, settle after E falls (R111). -/
def tEs : Nat := 100

/-- T_PWR, the wait that opens INIT (R181). -/
def tPwr : Nat := 15000

/-- T_W1, after the first wake-up function-set (R181). -/
def tW1 : Nat := 4100

/-- T_W2, after the second. -/
def tW2 : Nat := 100

/-- T_W3, after the third. -/
def tW3 : Nat := 40

/-- T_LONG, after clear and after return-home (R131, R132). -/
def tLong : Nat := 2000

/-- T_CMD_US, after every other command an operation issues. The source says "tens of microseconds"; 40 is the
spec's decision D8 and no statement depends on the figure (log entry 14). -/
def tCmdUs : Nat := 40

end Sys2Proof.Machine
end

