-- ==== Sys2Proof/Machine/Operands.lean ====
section
/-! DEFINITION. Operand forms (R72), the encoder functions of the settings (R77, R78, R80, R182), the data lines of
a transfer (R45) and the address arithmetic of the shadow cursor (R160 to R163). -/

namespace Sys2Proof.Machine

/-! ## Operand forms (R72): the value an operand names, or `none` for an illegal one -/

/-- `flag`: 0 is false, 1 is true. -/
def flagOperand (a : Byte) : Option Bool :=
  if a = 0 then some false else if a = 1 then some true else none

/-- `width` of SET_DATA_TRANS_BITS: 4 or 8. -/
def widthOperand (a : Byte) : Option TransferWidth :=
  if a = 4 then some .four else if a = 8 then some .eight else none

/-- `lines`: 1 or 2. -/
def linesOperand (a : Byte) : Option LineCount :=
  if a = 1 then some .one else if a = 2 then some .two else none

/-- `font`: 0 is F5x7, 1 is F5x10. -/
def fontOperand (a : Byte) : Option DotMatrix :=
  if a = 0 then some .f5x7 else if a = 1 then some .f5x10 else none

/-- R41: the address of row `r`, column `c` is `r*0x40 + c`. -/
def rowColumnAddress (row column : Byte) : Address :=
  BitVec.ofNat 7 (row.toNat * 0x40 + column.toNat)

/-- `row` and `column` of SET_POSITION: the address they name, for `row <= 1` and `column <= 39`. -/
def positionOperand (row column : Byte) : Option Address :=
  if row.toNat ≤ 1 ∧ column.toNat ≤ 39 then some (rowColumnAddress row column) else none

/-- `row` of CLEAR_LINE: the address of its first column, for `row <= 1`. -/
def rowOperand (row : Byte) : Option Address :=
  if row.toNat ≤ 1 then some (rowColumnAddress row 0) else none

/-! ## The settings as bits and bytes -/

/-- The number of data lines of a width. -/
def widthLines : TransferWidth → Fin 9
  | .four => 4
  | .eight => 8

/-- DL of R80: 1 for a width of 8. -/
def widthBit : TransferWidth → Bool
  | .four => false
  | .eight => true

/-- N of R80: 1 for two lines. -/
def linesBit : LineCount → Bool
  | .one => false
  | .two => true

/-- F of R80: 1 for F5x10. -/
def fontBit : DotMatrix → Bool
  | .f5x7 => false
  | .f5x10 => true

/-- `EM(S)`, R77. -/
def entryModeOf (c : Settings) : Byte := entryModeByte c.acAutoIncrease c.displayFollowCursor

/-- `DC(S)`, R78. -/
def displayControlOf (c : Settings) : Byte := displayControlByte c.displayOn c.cursorVisible c.cursorBlink

/-- `FS(S)`, R80. -/
def functionSetOf (c : Settings) : Byte :=
  functionSetByte (widthBit c.dataTransBits) (linesBit c.displayLines) (fontBit c.dotMatrix)

/-- `WAKE(S)`, R182, the parameter WAKE_FS: the configured width with N = 0 and F = 0. -/
def wakeOf (c : Settings) : Byte := functionSetByte (widthBit c.dataTransBits) false false

/-! ## Data lines (R45) -/

/-- `D<k>`. -/
def dataLine (k : Fin 8) : Signal :=
  match k with
  | 0 => .d0
  | 1 => .d1
  | 2 => .d2
  | 3 => .d3
  | 4 => .d4
  | 5 => .d5
  | 6 => .d6
  | 7 => .d7

/-- `line(w, i)`, R45: `D<i>` when 8 lines are bound, `D<4+i>` when 4 are. Another number of bound lines is a custom
wiring, for which the spec gives no line: a free value (log entry 7). -/
def line (w i : Nat) : Signal :=
  if w = 8 then dataLine (Fin.ofNat 8 i)
  else if w = 4 then dataLine (Fin.ofNat 8 (4 + i))
  else dataLine (Config.customLine w i)

/-! ## Addresses (R160 to R163) -/

/-- `V`, R160: the addresses 0x00..0x27 and 0x40..0x67. -/
def inRows (c : Address) : Bool :=
  decide (c.toNat ≤ 0x27) || (decide (0x40 ≤ c.toNat) && decide (c.toNat ≤ 0x67))

/-- `row(c) = c[6]`, R160. -/
def rowOf (c : Address) : Bool := c.getLsbD 6

/-- `col(c) = c[5:0]`, R160. -/
def columnOf (c : Address) : BitVec 6 := c.extractLsb' 0 6

/-- `adv`, R161, for `c` in V; outside V a free value (U2, log entry 6). -/
def adv (c : Address) : Address :=
  if c.toNat < 0x27 then c + 1
  else if c = 0x27 then 0x40
  else if 0x40 ≤ c.toNat ∧ c.toNat < 0x67 then c + 1
  else if c = 0x67 then 0x00
  else Config.advOutsideRows c

/-- `ret`, R162, for `c` in V; outside V a free value (U2, log entry 6). -/
def ret (c : Address) : Address :=
  if c = 0x00 then 0x67
  else if c.toNat < 0x28 then c - 1
  else if c = 0x40 then 0x27
  else if 0x40 < c.toNat ∧ c.toNat < 0x68 then c - 1
  else Config.retOutsideRows c

end Sys2Proof.Machine
end

