-- ==== Sys2Proof/Machine/Flags.lean ====
section
/-! DEFINITION. The three readiness flags (R14 to R16), the block's only flags: every write of one. Their reads are the
gates of Machine/Ops.lean (R116). -/

namespace Sys2Proof.Machine

/-- PINS_INIT sets `pins_ready` (R14, R180). -/
def State.setPinsReady (s : State) : State := { s with pinsReady := true }

/-- INIT's last step sets `write_ready` (R15, R181). -/
def State.setWriteReady (s : State) : State := { s with writeReady := true }

/-- SET_DATA_TRANS_BITS clears all three (R14 to R16, R138). -/
def State.clearReadiness (s : State) : State :=
  { s with pinsReady := false, writeReady := false, readReady := false }

end Sys2Proof.Machine
end

