-- ==== Sys2Proof/Machine/Ops.lean ====
section
/-! DEFINITION. The shared operations: the pin levels and the trace (R7, R19), raising an error (R206), the gates of
R116, and the internal procedures of spec/40_bus_write.md (strobe, send_bits, send_byte, send_command, send_data). -/

namespace Sys2Proof.Machine

/-! ## Pin levels and events -/

/-- The level of one signal. -/
def PinLevels.get (l : PinLevels) : Signal → Level
  | .rs => l.rs
  | .rw => l.rw
  | .e => l.e
  | .d0 => l.d0
  | .d1 => l.d1
  | .d2 => l.d2
  | .d3 => l.d3
  | .d4 => l.d4
  | .d5 => l.d5
  | .d6 => l.d6
  | .d7 => l.d7

/-- The levels with one signal's replaced. -/
def PinLevels.set (l : PinLevels) (sig : Signal) (v : Level) : PinLevels :=
  match sig with
  | .rs => { l with rs := v }
  | .rw => { l with rw := v }
  | .e => { l with e := v }
  | .d0 => { l with d0 := v }
  | .d1 => { l with d1 := v }
  | .d2 => { l with d2 := v }
  | .d3 => { l with d3 := v }
  | .d4 => { l with d4 := v }
  | .d5 => { l with d5 := v }
  | .d6 => { l with d6 := v }
  | .d7 => { l with d7 := v }

/-- The level a pin write puts on a signal. -/
def levelOf (b : Bool) : Level := if b then .high else .low

/-- R19: a `Pin(sig, level)` event writes the signal's level; a wait writes none. -/
def PinLevels.drive (l : PinLevels) : Event → PinLevels
  | .pin sig b => l.set sig (levelOf b)
  | .wait _ => l

/-- `emit` of 00_scope.md section 6, for a list of events in order: they are appended to the trace and the levels
follow them (R7, R19). -/
def State.emit (s : State) (es : List Event) : State :=
  { s with trace := s.trace ++ es, level := es.foldl PinLevels.drive s.level }

/-! ## Other writes of the state -/

/-- `S.cursor <- c`. -/
def State.setCursor (s : State) (c : Address) : State := { s with cursor := c }

/-- Store a settings record. -/
def State.setSettings (s : State) (c : Settings) : State := { s with settings := c }

/-- `S.bound_data <- n`. -/
def State.setBoundData (s : State) (n : Fin 9) : State := { s with boundData := n }

/-- Every level becomes X (R180). -/
def State.forgetLevels (s : State) : State := { s with level := .allUnknown }

/-- The result port answers (R203). -/
def State.report (s : State) (r : Result) : State := { s with results := s.results ++ [r] }

/-! ## Sequencing and errors -/

/-- How a part of an operation ends: done, or stopped by an error with every effect so far kept (R206), or with no
meaning at all. -/
inductive Flow where
  | done (s : State)
  | raised (e : ErrorKind) (s : State)
  | refused (r : Refusal)
  deriving DecidableEq, Repr

/-- Go on with `k` unless the operation has stopped. -/
def Flow.andThen (f : Flow) (k : State → Flow) : Flow :=
  match f with
  | .done s => k s
  | .raised e s => .raised e s
  | .refused r => .refused r

/-- Taking an error, R206: the operation stops here; the state is exactly the state at the failing line, "Nothing
is saved, no mode changes, no handler runs". There is no return from it (R207). -/
def raise (e : ErrorKind) (s : State) : Flow := .raised e s

/-- `require c else E`. -/
def require (c : Bool) (e : ErrorKind) (s : State) : Flow := if c then .done s else raise e s

/-- The result that names an error (R200). -/
def ErrorKind.result : ErrorKind → Result
  | .invalidArgument => .invalidArgument
  | .invalidState => .invalidState

/-- The end of an operation: exactly one result goes to the host (R7, R200, R207). -/
def Flow.complete (f : Flow) : Answer :=
  match f with
  | .done s => .next (s.report .ok)
  | .raised e s => .next (s.report e.result)
  | .refused r => .refused r

/-- R73, R201: a reserved selector returns InvalidArgument with no event and no change. -/
def reservedSelector (s : State) : Answer := (raise .invalidArgument s).complete

/-! ## Gates (R116) -/

/-- What raw operations and INIT need. -/
def requirePinsReady (s : State) : Flow := require s.pinsReady .invalidState s

/-- What cooked operations need. -/
def requireWriteReady (s : State) : Flow := require s.writeReady .invalidState s

/-! ## The parallel write protocol (spec/40_bus_write.md) -/

/-- R111: the enable pulse. -/
def strobe : List Event := [.pin .e true, .wait tEh, .pin .e false, .wait tEs]

/-- R43, R110: bit `i` of the value on the `i`-th bound line, for `i` from 0 to `w-1` in that order. -/
def dataPins (v : Byte) (w : Nat) : List Event :=
  (List.range w).map fun i => .pin (line w i) (v.getLsbD i)

/-- R110: the events of one transfer. -/
def transfer (v : Byte) (w : Nat) : List Event := .pin .rw false :: (dataPins v w ++ strobe)

/-- R110, `send_bits(v, w)`: `pins_ready` first, then the number of bound lines, then the transfer. -/
def sendBits (v : Byte) (w : Nat) (s : State) : Flow :=
  (requirePinsReady s).andThen fun s =>
  (require (s.boundData.val == w) .invalidArgument s).andThen fun s =>
  .done (s.emit (transfer v w))

/-- R44, R112, `send_byte(v)`: one transfer of 8 bits, or the high nibble and then the low one. The third branch of
R112 (another width) cannot be written: the width is 4 or 8 (R13, D28). -/
def sendByte (v : Byte) (s : State) : Flow :=
  match s.settings.dataTransBits with
  | .four => (sendBits (v >>> 4) 4 s).andThen (sendBits (v &&& 0x0F) 4)
  | .eight => sendBits v 8 s

/-- R113, `send_command(v)`. -/
def sendCommand (v : Byte) (s : State) : Flow :=
  (requirePinsReady s).andThen fun s =>
  sendByte v (s.emit [.pin .rs false])

/-- R114, `send_data(v)`: the cursor advances after the byte, whatever the settings are (D10, D25). -/
def sendData (v : Byte) (s : State) : Flow :=
  (requirePinsReady s).andThen fun s =>
  (sendByte v (s.emit [.pin .rs true])).andThen fun s =>
  .done (s.setCursor (adv s.cursor))

/-- A command followed by its settle time (R130 to R132, R164 to R168, R181, R190). -/
def sendCommandAndWait (v : Byte) (us : Nat) (s : State) : Flow :=
  (sendCommand v s).andThen fun s => .done (s.emit [.wait us])

end Sys2Proof.Machine
end

