-- ==== Sys2Proof/Machine/BusWrite.lean ====
section
/-! DEFINITION. The four raw operations (R110, R112 to R115): the internal procedures "offered to the host with no added
check and no added wait". -/

namespace Sys2Proof.Machine

/-- SEND_BITS, R110: the transfer width is the number in the second operand. -/
def execSendBits (value width : Byte) (s : State) : Answer := (sendBits value width.toNat s).complete

/-- SEND_BYTE, R112. -/
def execSendByte (value : Byte) (s : State) : Answer := (sendByte value s).complete

/-- SEND_COMMAND, R113. -/
def execSendCommand (value : Byte) (s : State) : Answer := (sendCommand value s).complete

/-- SEND_DATA, R114. -/
def execSendData (value : Byte) (s : State) : Answer := (sendData value s).complete

end Sys2Proof.Machine
end

