-- ==== Sys2Proof/Machine/Commands.lean ====
section
/-! DEFINITION. The command operations of spec/41_commands.md: CLEAR and HOME (R131, R132), the seven setters that
re-issue one consolidated command (R130, R133 to R137, R139 to R141), and SET_DATA_TRANS_BITS (R138). -/

namespace Sys2Proof.Machine

/-! ## CLEAR and HOME -/

/-- The body of CLEAR, without its gate (R131; INIT step 5, R181). -/
def clearBody (s : State) : Flow :=
  (sendCommandAndWait clearDisplayByte tLong s).andThen fun s => .done (s.setCursor 0x00)

/-- The body of HOME, without its gate (R132; INIT step 6, R181). -/
def homeBody (s : State) : Flow :=
  (sendCommandAndWait returnHomeByte tLong s).andThen fun s => .done (s.setCursor 0x00)

/-- CLEAR, R131. -/
def execClear (s : State) : Answer := ((requireWriteReady s).andThen clearBody).complete

/-- HOME, R132. -/
def execHome (s : State) : Answer := ((requireWriteReady s).andThen homeBody).complete

/-! ## Setters -/

/-- R130, the shape of a setter: the operand check, the store, the gate, the consolidated command of the whole group
as it stands after the update (R141), the settle. `operand` is the value the operand names, if legal. -/
def setter {α : Type} (operand : Option α) (store : α → Settings → Settings) (command : Settings → Byte)
    (s : State) : Flow :=
  match operand with
  | none => raise .invalidArgument s
  | some v =>
    (requireWriteReady (s.setSettings (store v s.settings))).andThen fun s =>
    sendCommandAndWait (command s.settings) tCmdUs s

/-- SET_AC_AUTO_INCREASE, R133. -/
def execSetAcAutoIncrease (flag : Byte) (s : State) : Answer :=
  (setter (flagOperand flag) (fun v c => { c with acAutoIncrease := v }) entryModeOf s).complete

/-- SET_DISPLAY_FOLLOW_CURSOR, R134. -/
def execSetDisplayFollowCursor (flag : Byte) (s : State) : Answer :=
  (setter (flagOperand flag) (fun v c => { c with displayFollowCursor := v }) entryModeOf s).complete

/-- SET_DISPLAY_ON, R135. -/
def execSetDisplayOn (flag : Byte) (s : State) : Answer :=
  (setter (flagOperand flag) (fun v c => { c with displayOn := v }) displayControlOf s).complete

/-- SET_CURSOR_VISIBLE, R136. -/
def execSetCursorVisible (flag : Byte) (s : State) : Answer :=
  (setter (flagOperand flag) (fun v c => { c with cursorVisible := v }) displayControlOf s).complete

/-- SET_CURSOR_BLINK, R137. -/
def execSetCursorBlink (flag : Byte) (s : State) : Answer :=
  (setter (flagOperand flag) (fun v c => { c with cursorBlink := v }) displayControlOf s).complete

/-- R138: the operand check, the store, the three flags; no event and no gate (D11). -/
def setDataTransBits (width : Byte) (s : State) : Flow :=
  match widthOperand width with
  | none => raise .invalidArgument s
  | some w => .done (s.setSettings { s.settings with dataTransBits := w }).clearReadiness

/-- SET_DATA_TRANS_BITS, R138. -/
def execSetDataTransBits (width : Byte) (s : State) : Answer := (setDataTransBits width s).complete

/-- SET_DISPLAY_LINES, R139. -/
def execSetDisplayLines (lines : Byte) (s : State) : Answer :=
  (setter (linesOperand lines) (fun v c => { c with displayLines := v }) functionSetOf s).complete

/-- SET_DOT_MATRIX, R140. -/
def execSetDotMatrix (font : Byte) (s : State) : Answer :=
  (setter (fontOperand font) (fun v c => { c with dotMatrix := v }) functionSetOf s).complete

end Sys2Proof.Machine
end

