-- ==== Sys2Proof/Machine/Cursor.lean ====
section
/-! DEFINITION. The cursor operations of spec/42_cursor.md (R164 to R168). -/

namespace Sys2Proof.Machine

/-- Send a command, wait the ordinary settle, then move the shadow to `n` (R164 to R168, D15: the cursor is written
after the command). -/
def commandThenCursor (command : Byte) (n : Address) (s : State) : Flow :=
  (sendCommandAndWait command tCmdUs s).andThen fun s => .done (s.setCursor n)

/-- An explicit address-set to `n`. -/
def jumpTo (n : Address) (s : State) : Flow := commandThenCursor (ddramByte n) n s

/-- R164: the operand check comes before the gate (D29). -/
def setPosition (row column : Byte) (s : State) : Flow :=
  match positionOperand row column with
  | none => raise .invalidArgument s
  | some addr => (requireWriteReady s).andThen (jumpTo addr)

/-- SET_POSITION, R164. -/
def execSetPosition (row column : Byte) (s : State) : Answer := (setPosition row column s).complete

/-- The body of MOVE_LEFT after its gate. -/
def moveLeftBody (s : State) : Flow :=
  if s.cursor = 0x00 ∨ s.cursor = 0x40 then jumpTo (ret s.cursor) s
  else commandThenCursor (cursorShiftByte false false) (ret s.cursor) s

/-- MOVE_LEFT, R166: CURSOR_LEFT, or a jump from the first column of a row. -/
def execMoveLeft (s : State) : Answer := ((requireWriteReady s).andThen moveLeftBody).complete

/-- The body of MOVE_RIGHT after its gate. -/
def moveRightBody (s : State) : Flow :=
  if s.cursor = 0x27 ∨ s.cursor = 0x67 then jumpTo (adv s.cursor) s
  else commandThenCursor (cursorShiftByte false true) (adv s.cursor) s

/-- MOVE_RIGHT, R165: CURSOR_RIGHT, or a jump from the last column of a row. -/
def execMoveRight (s : State) : Answer := ((requireWriteReady s).andThen moveRightBody).complete

/-- The body of MOVE_UP after its gate: on row 0 the spec gives no meaning (D14, U1). -/
def moveUpBody (s : State) : Flow :=
  if s.cursor.toNat < 0x40 then .refused .moveUpOnRow0 else jumpTo (s.cursor - 0x40) s

/-- MOVE_UP, R167. -/
def execMoveUp (s : State) : Answer := ((requireWriteReady s).andThen moveUpBody).complete

/-- The body of MOVE_DOWN after its gate: on row 1 the spec gives no meaning (D14, U1). -/
def moveDownBody (s : State) : Flow :=
  if 0x40 ≤ s.cursor.toNat then .refused .moveDownOnRow1 else jumpTo (s.cursor + 0x40) s

/-- MOVE_DOWN, R168. -/
def execMoveDown (s : State) : Answer := ((requireWriteReady s).andThen moveDownBody).complete

end Sys2Proof.Machine
end

