-- ==== Sys2Proof/Machine/Initialise.lean ====
section
/-! DEFINITION. Initialisation, spec/43_init.md: PINS_INIT (R180) and INIT (R181 to R183). -/

namespace Sys2Proof.Machine

/-- R180: binds as many data lines as the configured width, forgets every level, sets `pins_ready`; no event, no
error (D16, D24). -/
def pinsInit (s : State) : Flow :=
  .done ((s.setBoundData (widthLines s.settings.dataTransBits)).forgetLevels.setPinsReady)

/-- PINS_INIT, R180. -/
def execPinsInit (s : State) : Answer := (pinsInit s).complete

/-- One wake-up function-set and its settle (R181 steps 1 to 3, R182). -/
def wakeUp (us : Nat) (s : State) : Flow := sendCommandAndWait (wakeOf s.settings) us s

/-- A command built from the settings, and the ordinary settle (R181 steps 4, 7 and 8). -/
def applySettings (command : Settings → Byte) (s : State) : Flow :=
  sendCommandAndWait (command s.settings) tCmdUs s

/-- R181, the timed power-on sequence: the opening wait comes before the first thing that can fail. -/
def initSequence (s : State) : Flow :=
  (wakeUp tW1 (s.emit [.wait tPwr])).andThen fun s =>
  (wakeUp tW2 s).andThen fun s =>
  (wakeUp tW3 s).andThen fun s =>
  (applySettings functionSetOf s).andThen fun s =>
  (clearBody s).andThen fun s =>
  (homeBody s).andThen fun s =>
  (applySettings entryModeOf s).andThen fun s =>
  (applySettings displayControlOf s).andThen fun s =>
  .done s.setWriteReady

/-- INIT, R181 to R183. -/
def execInit (s : State) : Answer := (initSequence s).complete

end Sys2Proof.Machine
end

