-- ==== Sys2Proof/Machine/Line.lean ====
section
/-! DEFINITION. CLEAR_LINE, spec/44_line_ops.md R190. -/

namespace Sys2Proof.Machine

/-- The code of the space character (R83, R190; G11). -/
def spaceCode : Byte := 0x20

/-- `n` data writes of a space, each advancing the cursor (R114). -/
def sendSpaces : Nat → State → Flow
  | 0, s => .done s
  | n + 1, s => (sendData spaceCode s).andThen (sendSpaces n)

/-- R190: the operand check, the gate, the body of SET_POSITION `row, 0`, then 40 spaces. -/
def clearLine (row : Byte) (s : State) : Flow :=
  match rowOperand row with
  | none => raise .invalidArgument s
  | some addr => (requireWriteReady s).andThen fun s => (jumpTo addr s).andThen (sendSpaces 40)

/-- CLEAR_LINE, R190. -/
def execClearLine (row : Byte) (s : State) : Answer := (clearLine row s).complete

end Sys2Proof.Machine
end

