-- ==== Sys2Proof/Machine/WireCommands.lean ====
section
/-! DEFINITION. The wire rows of the opcode table (R75 to R83) as instructions: "A wire command is one byte sent by
`send_command`" (R74), a data byte "any 8-bit value sent by `send_data`" (R83). For the address-set and shift
commands this is the expansion R89 gives to SEND_COMMAND: raw, gated by `pins_ready` only, with no settle and no
effect on the cursor or the settings (R86, R89). DEDUCED for the rows R89 does not list: log entry 8. -/

namespace Sys2Proof.Machine

/-- CLEAR_DISPLAY, R75. -/
def execClearDisplay (s : State) : Answer := (sendCommand clearDisplayByte s).complete

/-- RETURN_HOME, R76. -/
def execReturnHome (s : State) : Answer := (sendCommand returnHomeByte s).complete

/-- ENTRY_MODE_SET, R77. -/
def execEntryModeSet (id sh : Bool) (s : State) : Answer := (sendCommand (entryModeByte id sh) s).complete

/-- DISPLAY_CONTROL, R78. -/
def execDisplayControl (d c b : Bool) (s : State) : Answer := (sendCommand (displayControlByte d c b) s).complete

/-- CURSOR_LEFT, R79, R89. -/
def execCursorLeft (s : State) : Answer := (sendCommand (cursorShiftByte false false) s).complete

/-- CURSOR_RIGHT, R79, R89. -/
def execCursorRight (s : State) : Answer := (sendCommand (cursorShiftByte false true) s).complete

/-- DISPLAY_LEFT, R79, R89. -/
def execDisplayLeft (s : State) : Answer := (sendCommand (cursorShiftByte true false) s).complete

/-- DISPLAY_RIGHT, R79, R89. -/
def execDisplayRight (s : State) : Answer := (sendCommand (cursorShiftByte true true) s).complete

/-- FUNCTION_SET, R80. -/
def execFunctionSet (dl n f : Bool) (s : State) : Answer := (sendCommand (functionSetByte dl n f) s).complete

/-- SET_CGRAM_ADDR, R81, R89. -/
def execSetCgramAddr (a : BitVec 6) (s : State) : Answer := (sendCommand (cgramByte a) s).complete

/-- SET_DDRAM_ADDR, R82, R89. -/
def execSetDdramAddr (a : Address) (s : State) : Answer := (sendCommand (ddramByte a) s).complete

/-- DATA_BYTE, R83: `send_data`, which advances the cursor (R49, R114). -/
def execDataByte (v : Byte) (s : State) : Answer := (sendData v s).complete

end Sys2Proof.Machine
end

