-- ==== Sys2Proof/Machine/Dispatch.lean ====
section
/-! DEFINITION. One arm per row of the opcode table. -/

namespace Sys2Proof.Machine

def exec (i : Instr) (s : State) : Host.Outcome State Fault Refusal :=
  match i with
  | .sendBits value width => Sys2Proof.Machine.execSendBits value width s
  | .sendByte value => Sys2Proof.Machine.execSendByte value s
  | .sendCommand value => Sys2Proof.Machine.execSendCommand value s
  | .sendData value => Sys2Proof.Machine.execSendData value s
  | .clear => Sys2Proof.Machine.execClear s
  | .home => Sys2Proof.Machine.execHome s
  | .setAcAutoIncrease flag => Sys2Proof.Machine.execSetAcAutoIncrease flag s
  | .setDisplayFollowCursor flag => Sys2Proof.Machine.execSetDisplayFollowCursor flag s
  | .setDisplayOn flag => Sys2Proof.Machine.execSetDisplayOn flag s
  | .setCursorVisible flag => Sys2Proof.Machine.execSetCursorVisible flag s
  | .setCursorBlink flag => Sys2Proof.Machine.execSetCursorBlink flag s
  | .setDataTransBits width => Sys2Proof.Machine.execSetDataTransBits width s
  | .setDisplayLines lines => Sys2Proof.Machine.execSetDisplayLines lines s
  | .setDotMatrix font => Sys2Proof.Machine.execSetDotMatrix font s
  | .setPosition row column => Sys2Proof.Machine.execSetPosition row column s
  | .moveLeft => Sys2Proof.Machine.execMoveLeft s
  | .moveRight => Sys2Proof.Machine.execMoveRight s
  | .moveUp => Sys2Proof.Machine.execMoveUp s
  | .moveDown => Sys2Proof.Machine.execMoveDown s
  | .pinsInit => Sys2Proof.Machine.execPinsInit s
  | .init => Sys2Proof.Machine.execInit s
  | .clearLine row => Sys2Proof.Machine.execClearLine row s
  | .clearDisplay => Sys2Proof.Machine.execClearDisplay s
  | .returnHome => Sys2Proof.Machine.execReturnHome s
  | .entryModeSet id sh => Sys2Proof.Machine.execEntryModeSet id sh s
  | .displayControl d c b => Sys2Proof.Machine.execDisplayControl d c b s
  | .cursorLeft => Sys2Proof.Machine.execCursorLeft s
  | .cursorRight => Sys2Proof.Machine.execCursorRight s
  | .displayLeft => Sys2Proof.Machine.execDisplayLeft s
  | .displayRight => Sys2Proof.Machine.execDisplayRight s
  | .functionSet dl n f => Sys2Proof.Machine.execFunctionSet dl n f s
  | .setCgramAddr a => Sys2Proof.Machine.execSetCgramAddr a s
  | .setDdramAddr a => Sys2Proof.Machine.execSetDdramAddr a s
  | .dataByte v => Sys2Proof.Machine.execDataByte v s

end Sys2Proof.Machine
end

