-- ==== Sys2Proof/Machine/Fetch.lean ====
section
/-! DEFINITION. Running one request (R7, R70, R73). -/

namespace Sys2Proof.Machine

/-- What the block does with a request: the operation it decodes to. A reserved selector returns InvalidArgument
(R73). A wire command byte in no class is sent unchanged by `send_command` (R86, U5: log entry 10). -/
def runRequest (r : Request) (s : State) : Answer :=
  match decode r with
  | .ok i => exec i s
  | .error (.reservedSelector _) => reservedSelector s
  | .error (.unclassedWireByte b) => execSendCommand b s

/-- Take the next request off the port. -/
def State.takeRequest (s : State) : State := { s with requests := s.requests.tail }

/-- Put a request where the next step takes it from. -/
def State.presentFirst (s : State) (r : Request) : State := { s with requests := r :: s.requests }

end Sys2Proof.Machine
end

