-- ==== Sys2Proof/Machine/Step.lean ====
section
/-! DEFINITION. One step: the block executes the request the host presents next, from its first effect to its last
(R6, R7, R21). -/

namespace Sys2Proof.Machine

/-- R7. With no request the block is idle and "waits" (R213, R230: log entry 2). -/
def step (s : State) : Host.Outcome State Fault Refusal :=
  match s.requests with
  | [] => .next s
  | r :: _ => runRequest r s.takeRequest

/-- The state with a word of the opcode table presented as the next request. The block fetches nothing (R21, R53): a
program is the list of requests the host presents, and this stands for presenting one (log entry 1). -/
def State.withFetchWord (s : State) (nbits w : Nat) : State :=
  match tableRequest nbits w with
  | some r => s.presentFirst r
  | none => s

end Sys2Proof.Machine
end

