-- ==== Sys2Proof/Machine/PrintLine.lean ====
section
/-! DEFINITION. PRINT_LINE, spec/44_line_ops.md R191: a pseudo-operation with no selector (R89). -/

namespace Sys2Proof.Machine

/-- Run operations in order, "stopping at the first operation whose result is not OK, with that result" (R191). -/
def runWhileOk : List Instr → State → Answer
  | [], s => .next s
  | i :: rest, s =>
    match exec i s with
    | .next t => if t.results.getLast? = some .ok then runWhileOk rest t else .next t
    | .fault f => .fault f
    | .refused r => .refused r

/-- The expansion of PRINT_LINE `text, row` (R89, R191). -/
def printLineOps (text : List Byte) (row : Byte) : List Instr :=
  .clearLine row :: .setPosition row 0 :: text.map .sendData

/-- PRINT_LINE: defined for at most 40 characters; a longer text has no meaning (R191, U6). Of the
treatments U6 names, the model takes the refusal. DESIGN CHOICE, safe: log entry 12. -/
def printLine (text : List Byte) (row : Byte) (s : State) : Answer :=
  if text.length ≤ 40 then runWhileOk (printLineOps text row) s else .refused .printLineTooLong

end Sys2Proof.Machine
end

