-- ==== Sys2Proof/Machine/Status.lean ====
section
/-! DEFINITION. What the host can read: the status outputs (R26, D23), the three control registers as the packed fields of
R11 to R13, and the result codes (R203). Reading has no side effect and is no operation (R26; log entry 17). -/

namespace Sys2Proof.Machine

/-- R26, D23: the status outputs, "the settings, the three flags, the cursor and `bound_data`". -/
structure Status where
  settings : Settings
  pinsReady : Bool
  writeReady : Bool
  readReady : Bool
  cursor : Address
  boundData : Fin 9
  deriving DecidableEq, Repr

/-- R26, D23: the outputs of a state. -/
def State.status (s : State) : Status where
  settings := s.settings
  pinsReady := s.pinsReady
  writeReady := s.writeReady
  readReady := s.readReady
  cursor := s.cursor
  boundData := s.boundData

/-- R11: ENTRY_MODE, bits 1 and 0. -/
def entryModeRegister (c : Settings) : BitVec 2 :=
  BitVec.ofBool c.acAutoIncrease ++ BitVec.ofBool c.displayFollowCursor

/-- R12: DISPLAY_CTRL, bits 2 to 0. -/
def displayCtrlRegister (c : Settings) : BitVec 3 :=
  (BitVec.ofBool c.displayOn ++ BitVec.ofBool c.cursorVisible ++ BitVec.ofBool c.cursorBlink : BitVec (1 + 1 + 1))

/-- R13: FUNCTION_SET, its fields in bits 4 to 2 of the command byte. -/
def functionSetRegister (c : Settings) : BitVec 3 :=
  (BitVec.ofBool (widthBit c.dataTransBits) ++ BitVec.ofBool (linesBit c.displayLines) ++
    BitVec.ofBool (fontBit c.dotMatrix) : BitVec (1 + 1 + 1))

/-- R203: the code on the result port; 3 is never produced. -/
def Result.code : Result → BitVec 2
  | .ok => 0
  | .invalidArgument => 1
  | .invalidState => 2

end Sys2Proof.Machine
end

