-- ==== Sys2Proof/Safety.lean ====
section
/-! DEFINITION. The terms statements use: the invariants of every reachable state (R25, R48), the readiness an operation
needs (R116), and what the bus carries, written out from spec/95_test_vectors.md's conventions (`STROBE`, `cmd8`,
`dat8`, `cmd4`, `dat4`) and not from the procedures of Machine/Ops.lean. -/

namespace Sys2Proof.Machine

/-! ## States -/

/-- Pins ready, and as many data lines bound as the width has (R25 item 3): a raw operation or INIT can send. -/
abbrev RawReady (s : State) : Prop :=
  s.pinsReady = true ∧ s.boundData = widthLines s.settings.dataTransBits

/-- The initialised block: a cooked operation passes its gate and can send (R116). -/
abbrev CookedReady (s : State) : Prop := s.writeReady = true ∧ RawReady s

/-- The invariants of every reachable state, R25 items 1 to 4 (item 5 holds by the types), the values R18 gives
`S.bound_data`, and R48: RW is never 1; E is never left at 1 (R111). -/
structure Invariant (s : State) : Prop where
  readReady_false : s.readReady = false
  writeReady_pinsReady : s.writeReady = true → s.pinsReady = true
  pinsReady_bound : s.pinsReady = true → s.boundData = widthLines s.settings.dataTransBits
  bound_legal : s.boundData = 0 ∨ s.boundData = 4 ∨ s.boundData = 8
  cursor_inRows : inRows s.cursor = true
  rw_not_high : s.level.rw ≠ .high
  e_not_high : s.level.e ≠ .high
  trace_write_only : Event.pin .rw true ∉ s.trace

/-! ## What the bus carries for one byte -/

/-- `STROBE`. -/
def pulse : List Event := [.pin .e true, .wait 1, .pin .e false, .wait 100]

/-- One byte in 8-bit mode: bit `k` on `D<k>`, one transfer. -/
def byteOnEight (v : Byte) : List Event :=
  [.pin .rw false, .pin .d0 (v.getLsbD 0), .pin .d1 (v.getLsbD 1), .pin .d2 (v.getLsbD 2), .pin .d3 (v.getLsbD 3),
   .pin .d4 (v.getLsbD 4), .pin .d5 (v.getLsbD 5), .pin .d6 (v.getLsbD 6), .pin .d7 (v.getLsbD 7)] ++ pulse

/-- The low nibble of a value on `D4`..`D7`, one transfer. -/
def lowNibbleOnFour (v : Byte) : List Event :=
  [.pin .rw false, .pin .d4 (v.getLsbD 0), .pin .d5 (v.getLsbD 1), .pin .d6 (v.getLsbD 2),
   .pin .d7 (v.getLsbD 3)] ++ pulse

/-- One byte in 4-bit mode: the high nibble, then the low one, two transfers. -/
def byteOnFour (v : Byte) : List Event :=
  [.pin .rw false, .pin .d4 (v.getLsbD 4), .pin .d5 (v.getLsbD 5), .pin .d6 (v.getLsbD 6),
   .pin .d7 (v.getLsbD 7)] ++ pulse ++ lowNibbleOnFour v

/-- One byte in the mode of a width. -/
def byteOnBus : TransferWidth → Byte → List Event
  | .four, v => byteOnFour v
  | .eight, v => byteOnEight v

/-- `cmd4`, `cmd8`: RS low, once, then the byte. -/
def commandOnBus (w : TransferWidth) (v : Byte) : List Event := .pin .rs false :: byteOnBus w v

/-- `dat4`, `dat8`: RS high, once, then the byte. -/
def dataOnBus (w : TransferWidth) (v : Byte) : List Event := .pin .rs true :: byteOnBus w v

/-- The levels after an 8-bit transfer of `v`. -/
def levelsAfterEight (v : Byte) (l : PinLevels) : PinLevels where
  rs := l.rs
  rw := .low
  e := .low
  d0 := levelOf (v.getLsbD 0)
  d1 := levelOf (v.getLsbD 1)
  d2 := levelOf (v.getLsbD 2)
  d3 := levelOf (v.getLsbD 3)
  d4 := levelOf (v.getLsbD 4)
  d5 := levelOf (v.getLsbD 5)
  d6 := levelOf (v.getLsbD 6)
  d7 := levelOf (v.getLsbD 7)

/-- The levels after a 4-bit transfer of the low nibble of `v`: `D0`..`D3` keep theirs. -/
def levelsAfterFour (v : Byte) (l : PinLevels) : PinLevels where
  rs := l.rs
  rw := .low
  e := .low
  d0 := l.d0
  d1 := l.d1
  d2 := l.d2
  d3 := l.d3
  d4 := levelOf (v.getLsbD 0)
  d5 := levelOf (v.getLsbD 1)
  d6 := levelOf (v.getLsbD 2)
  d7 := levelOf (v.getLsbD 3)

/-- The levels after a byte: in 4-bit mode the low nibble is the last on the lines. -/
def levelsAfterByte : TransferWidth → Byte → PinLevels → PinLevels
  | .four => levelsAfterFour
  | .eight => levelsAfterEight

/-! ## States after a byte, a wait, a result -/

/-- A command byte is on the bus: the trace and the levels, nothing else. -/
def State.afterCommand (s : State) (v : Byte) : State :=
  { s with
    trace := s.trace ++ commandOnBus s.settings.dataTransBits v
    level := { levelsAfterByte s.settings.dataTransBits v s.level with rs := .low } }

/-- A data byte is on the bus: the trace and the levels, nothing else. -/
def State.afterData (s : State) (v : Byte) : State :=
  { s with
    trace := s.trace ++ dataOnBus s.settings.dataTransBits v
    level := { levelsAfterByte s.settings.dataTransBits v s.level with rs := .high } }

/-- A wait has passed. -/
def State.afterWait (s : State) (us : Nat) : State := { s with trace := s.trace ++ [.wait us] }

/-- The host has been given a result. -/
def State.afterResult (s : State) (r : Result) : State := { s with results := s.results ++ [r] }

/-! ## A receiver on the far side of the bus -/

/-- What the bus shows: RS and `D7..D0`. -/
structure BusView where
  rs : Bool
  data : Byte
  deriving DecidableEq, Repr

/-- A byte with bit `k` replaced. -/
def withBit (v : Byte) (k : Nat) (b : Bool) : Byte :=
  if b then v ||| (1#8 <<< k) else v &&& ~~~(1#8 <<< k)

/-- What a pin write changes in the view. -/
def BusView.see (u : BusView) : Event → BusView
  | .pin .rs b => { u with rs := b }
  | .pin .d0 b => { u with data := withBit u.data 0 b }
  | .pin .d1 b => { u with data := withBit u.data 1 b }
  | .pin .d2 b => { u with data := withBit u.data 2 b }
  | .pin .d3 b => { u with data := withBit u.data 3 b }
  | .pin .d4 b => { u with data := withBit u.data 4 b }
  | .pin .d5 b => { u with data := withBit u.data 5 b }
  | .pin .d6 b => { u with data := withBit u.data 6 b }
  | .pin .d7 b => { u with data := withBit u.data 7 b }
  | .pin .rw _ => u
  | .pin .e _ => u
  | .wait _ => u

/-- The views a receiver takes, one at each fall of E (R111; that it is the falling edge is G5). -/
def latched (u : BusView) : List Event → List BusView
  | [] => []
  | .pin .e false :: es => u :: latched u es
  | ev :: es => latched (u.see ev) es

/-- R84: in 4-bit mode two transfers make a byte, the first its high nibble, both read from `D7..D4`. -/
def pairNibbles : List BusView → List (Bool × Byte)
  | h :: l :: rest => (h.rs, (h.data &&& 0xF0) ||| (l.data >>> 4)) :: pairNibbles rest
  | _ => []

/-- R84: the bytes, each with its RS, that a receiver which knows the mode reads from a trace. -/
def received (w : TransferWidth) (u : BusView) (es : List Event) : List (Bool × Byte) :=
  match w with
  | .eight => (latched u es).map fun x => (x.rs, x.data)
  | .four => pairNibbles (latched u es)

/-! ## Time -/

/-- The minimum duration of a trace: the sum of its waits; pin writes take no modelled time (R246). -/
def minDuration : List Event → Nat
  | [] => 0
  | .wait us :: es => us + minDuration es
  | .pin _ _ :: es => minDuration es

/-! ## Requests -/

/-- R71: the selectors whose first operand field is used. -/
def usesFirst (op : BitVec 5) : Bool :=
  op ∈ [0x00#5, 0x01#5, 0x02#5, 0x03#5, 0x06#5, 0x07#5, 0x08#5, 0x09#5, 0x0A#5, 0x0B#5, 0x0C#5, 0x0D#5, 0x0E#5, 0x15#5]

/-- R71: the selectors whose second operand field is used. -/
def usesSecond (op : BitVec 5) : Bool := op ∈ [0x00#5, 0x0E#5]

/-- R85: the bytes of no command class. -/
def unclassedBytes : List Byte :=
  [0x00, 0x03, 0x11, 0x12, 0x13, 0x15, 0x16, 0x17, 0x19, 0x1A, 0x1B, 0x1D, 0x1E, 0x1F, 0x21, 0x22, 0x23, 0x25, 0x26,
   0x27, 0x29, 0x2A, 0x2B, 0x2D, 0x2E, 0x2F, 0x31, 0x32, 0x33, 0x35, 0x36, 0x37, 0x39, 0x3A, 0x3B, 0x3D, 0x3E, 0x3F]

/-- R116, the cooked operations, which need `S.write_ready`. -/
def cooked : Instr → Bool
  | .sendBits _ _ => false
  | .sendByte _ => false
  | .sendCommand _ => false
  | .sendData _ => false
  | .clear => true
  | .home => true
  | .setAcAutoIncrease _ => true
  | .setDisplayFollowCursor _ => true
  | .setDisplayOn _ => true
  | .setCursorVisible _ => true
  | .setCursorBlink _ => true
  | .setDataTransBits _ => false
  | .setDisplayLines _ => true
  | .setDotMatrix _ => true
  | .setPosition _ _ => true
  | .moveLeft => true
  | .moveRight => true
  | .moveUp => true
  | .moveDown => true
  | .pinsInit => false
  | .init => false
  | .clearLine _ => true
  | .clearDisplay => false
  | .returnHome => false
  | .entryModeSet _ _ => false
  | .displayControl _ _ _ => false
  | .cursorLeft => false
  | .cursorRight => false
  | .displayLeft => false
  | .displayRight => false
  | .functionSet _ _ _ => false
  | .setCgramAddr _ => false
  | .setDdramAddr _ => false
  | .dataByte _ => false

/-- The settings after a setter has stored its operand (R130, R138); unchanged for an illegal operand and for
every other instruction. -/
def storedSettings (i : Instr) (c : Settings) : Settings :=
  match i with
  | .setAcAutoIncrease f => if f = 0 ∨ f = 1 then { c with acAutoIncrease := f == 1 } else c
  | .setDisplayFollowCursor f => if f = 0 ∨ f = 1 then { c with displayFollowCursor := f == 1 } else c
  | .setDisplayOn f => if f = 0 ∨ f = 1 then { c with displayOn := f == 1 } else c
  | .setCursorVisible f => if f = 0 ∨ f = 1 then { c with cursorVisible := f == 1 } else c
  | .setCursorBlink f => if f = 0 ∨ f = 1 then { c with cursorBlink := f == 1 } else c
  | .setDataTransBits n =>
    if n = 4 then { c with dataTransBits := .four } else if n = 8 then { c with dataTransBits := .eight } else c
  | .setDisplayLines n =>
    if n = 1 then { c with displayLines := .one } else if n = 2 then { c with displayLines := .two } else c
  | .setDotMatrix n =>
    if n = 0 then { c with dotMatrix := .f5x7 } else if n = 1 then { c with dotMatrix := .f5x10 } else c
  | .sendBits _ _ => c
  | .sendByte _ => c
  | .sendCommand _ => c
  | .sendData _ => c
  | .clear => c
  | .home => c
  | .setPosition _ _ => c
  | .moveLeft => c
  | .moveRight => c
  | .moveUp => c
  | .moveDown => c
  | .pinsInit => c
  | .init => c
  | .clearLine _ => c
  | .clearDisplay => c
  | .returnHome => c
  | .entryModeSet _ _ => c
  | .displayControl _ _ _ => c
  | .cursorLeft => c
  | .cursorRight => c
  | .displayLeft => c
  | .displayRight => c
  | .functionSet _ _ _ => c
  | .setCgramAddr _ => c
  | .setDdramAddr _ => c
  | .dataByte _ => c

/-- R201: what makes a request's operands wrong. For SEND_BITS it depends on the state; the rest is R72. -/
def badOperand (i : Instr) (s : State) : Prop :=
  match i with
  | .sendBits _ width => s.pinsReady = true ∧ s.boundData.val ≠ width.toNat
  | other => other.wellFormed = false

/-- R202, R205: an operation without bad operands that lacks the flag R116 asks for. PINS_INIT and
SET_DATA_TRANS_BITS need none. -/
def lacksReadiness (i : Instr) (s : State) : Prop :=
  match i with
  | .pinsInit => False
  | .setDataTransBits _ => False
  | other => if cooked other then other.wellFormed = true ∧ s.writeReady = false else s.pinsReady = false

/-- R202, last column: what an InvalidState leaves behind, before its result: INIT's opening wait, a setter's
field, otherwise nothing. -/
def leftByInvalidState (i : Instr) (s : State) : State :=
  match i with
  | .init => s.afterWait 15000
  | other => { s with settings := storedSettings other s.settings }

/-- The instructions that can write `S.cursor` (R17); DATA_BYTE is `send_data`. -/
def writesCursor : Instr → Bool
  | .sendData _ => true
  | .clear => true
  | .home => true
  | .setPosition _ _ => true
  | .moveLeft => true
  | .moveRight => true
  | .moveUp => true
  | .moveDown => true
  | .init => true
  | .clearLine _ => true
  | .dataByte _ => true
  | .sendBits _ _ => false
  | .sendByte _ => false
  | .sendCommand _ => false
  | .setAcAutoIncrease _ => false
  | .setDisplayFollowCursor _ => false
  | .setDisplayOn _ => false
  | .setCursorVisible _ => false
  | .setCursorBlink _ => false
  | .setDataTransBits _ => false
  | .setDisplayLines _ => false
  | .setDotMatrix _ => false
  | .pinsInit => false
  | .clearDisplay => false
  | .returnHome => false
  | .entryModeSet _ _ => false
  | .displayControl _ _ _ => false
  | .cursorLeft => false
  | .cursorRight => false
  | .displayLeft => false
  | .displayRight => false
  | .functionSet _ _ _ => false
  | .setCgramAddr _ => false
  | .setDdramAddr _ => false

end Sys2Proof.Machine
end

