-- ==== Sys2Proof/Certificates/Slice0/Obligations.lean ====
section
/-! DEFINITION. The statements for the provers, in the order of OBLIGATIONS.json. Each docstring names the rule of spec/ it
formalises, and the choices it rests on that are not the source's. -/

open Sys2Proof Sys2Proof.Machine

/-! ## Encodings -/

/-- 30_encoding.md sections 1 to 3: no bit of an encoding is dropped, for every instruction and every operand value
(R70: the words and the operations "are in bijection on the legal words"). -/
def Obligations.DecodeOfEncodeIsTheInstruction : Prop :=
  ∀ i : Instr, decode (encode i) = .ok i

/-- The other direction on the wire: a byte of a command class is the encoding of what it decodes to (R74 to R82). -/
def Obligations.EncodeOfDecodedWireByteIsTheByte : Prop :=
  ∀ (b : Byte) (i : Instr), decode (.wireCommand b) = .ok i → encode i = .wireCommand b

/-- R70 and R88: the value of a request word, and that a word is made of its three fields. -/
def Obligations.RequestWordIsMadeOfItsFields : Prop :=
  (∀ (op : BitVec 5) (a b : Byte),
    (hostWord op a b).toNat = op.toNat * 2 ^ 16 + a.toNat * 2 ^ 8 + b.toNat) ∧
  (∀ w : HostWord, hostWord (opField w) (aField w) (bField w) = w)

/-- R71: "`-` means the operand field is ignored (any value, not checked)" (U13). -/
def Obligations.IgnoredOperandFieldsDoNotMatter : Prop :=
  (∀ (op : BitVec 5) (a a' b : Byte), usesFirst op = false →
    decode (.host (hostWord op a b)) = decode (.host (hostWord op a' b))) ∧
  (∀ (op : BitVec 5) (a b b' : Byte), usesSecond op = false →
    decode (.host (hostWord op a b)) = decode (.host (hostWord op a b')))

/-- Words written out in 30_encoding.md R87, R88 and 95_test_vectors.md decode to the operations they stand for, one or
more of every family; bus bytes of R75 to R83 likewise (the register select of a lone byte is log entry 9). -/
def Obligations.WrittenOutWordsDecode : Prop :=
  decodeTableWord 24 0x00A508 = some (.sendBits 0xA5 8) ∧
  decodeTableWord 24 0x012800 = some (.sendByte 0x28) ∧
  decodeTableWord 24 0x04FFFF = some .clear ∧
  decodeTableWord 24 0x0B0400 = some (.setDataTransBits 4) ∧
  decodeTableWord 24 0x0E0105 = some (.setPosition 1 5) ∧
  decodeTableWord 24 0x100000 = some .moveRight ∧
  decodeTableWord 24 0x140000 = some .init ∧
  decodeTableWord 24 0x150100 = some (.clearLine 1) ∧
  decodeTableWord 24 0x160000 = none ∧
  decodeTableWord 8 0x0C = some (.displayControl true false false) ∧
  decodeTableWord 8 0x2C = some (.functionSet false true true) ∧
  decodeTableWord 8 0xC5 = some (.setDdramAddr 0x45)

/-- R74, R85: exactly the listed bytes are in no command class, and decoding rejects them by name. -/
def Obligations.BytesInNoClassAreTheListedOnes : Prop :=
  ∀ b : Byte, decodeWireCommand b = .error (.unclassedWireByte b) ↔ b ∈ unclassedBytes

/-- 30_encoding.md section 2 and R182: the bytes `EM`, `DC`, `FS` and `WAKE` as numbers. The base values and bit positions
are the spec's general knowledge (G1, G2, G12; log entry 13). -/
def Obligations.SettingsEncodersGiveTheTabledBytes : Prop :=
  ∀ c : Settings,
    (entryModeOf c).toNat = 0x04 + 2 * c.acAutoIncrease.toNat + c.displayFollowCursor.toNat ∧
    (displayControlOf c).toNat = 0x08 + 4 * c.displayOn.toNat + 2 * c.cursorVisible.toNat + c.cursorBlink.toNat ∧
    (functionSetOf c).toNat = 0x20 + (if c.dataTransBits = .eight then 0x10 else 0) +
      (if c.displayLines = .two then 0x08 else 0) + (if c.dotMatrix = .f5x10 then 0x04 else 0) ∧
    (wakeOf c).toNat = 0x20 + (if c.dataTransBits = .eight then 0x10 else 0)

/-! ## Steps -/

/-- R7, R21: when the request the host presents next decodes to an instruction, the step is that instruction, on the
state with the request taken. -/
def Obligations.StepRunsTheDecodedInstruction : Prop :=
  ∀ (s : State) (r : Request) (rest : List Request) (i : Instr),
    s.requests = r :: rest → decode r = .ok i → step s = exec i { s with requests := rest }

/-- R73: a reserved selector. -/
def Obligations.ReservedSelectorReturnsInvalidArgument : Prop :=
  ∀ (s : State) (w : HostWord) (rest : List Request),
    s.requests = .host w :: rest → 0x16 ≤ w.toNat / 2 ^ 16 →
    step s = .next { s with requests := rest, results := s.results ++ [.invalidArgument] }

/-- The two steps that decode no instruction: with no request the block is idle (the model's reading of R213 and R230, log
entry 2), and a wire command byte in no class is sent unchanged (the model's reading of U5, log entry 10). -/
def Obligations.StepWithoutAnInstruction : Prop :=
  (∀ s : State, s.requests = [] → step s = .next s) ∧
  (∀ (s : State) (b : Byte) (rest : List Request), s.requests = .wireCommand b :: rest → b ∈ unclassedBytes →
    step s = exec (.sendCommand b) { s with requests := rest })

/-- 10_state.md section 7: the state after reset, for every RESET_SETTINGS. That the three lists are empty is the model's
own choice (DESIGN CHOICE, log entries 1 and 3), which R24 does not say. -/
def Obligations.ResetStateIsAsTheSpecSays : Prop :=
  ∀ c : Settings,
    (State.resetWith c).settings = c ∧
    (State.resetWith c).pinsReady = false ∧ (State.resetWith c).writeReady = false ∧
    (State.resetWith c).readReady = false ∧
    (State.resetWith c).cursor = 0x00 ∧ (State.resetWith c).boundData = 0 ∧
    (∀ sig : Signal, (State.resetWith c).level.get sig = .unknown) ∧
    (State.resetWith c).requests = [] ∧ (State.resetWith c).trace = [] ∧ (State.resetWith c).results = []

/-- R203: the codes on the result port; 3 is never produced. -/
def Obligations.ResultCodesAreTheListedOnes : Prop :=
  Result.code .ok = 0 ∧ Result.code .invalidArgument = 1 ∧ Result.code .invalidState = 2 ∧
  ∀ r : Result, Result.code r ≠ 3

/-- R11 to R13: the fields of the three control registers are the low bits of the commands that carry them. -/
def Obligations.ControlRegistersAreTheCommandFields : Prop :=
  ∀ c : Settings,
    (entryModeOf c).extractLsb' 0 2 = entryModeRegister c ∧
    (displayControlOf c).extractLsb' 0 3 = displayCtrlRegister c ∧
    (functionSetOf c).extractLsb' 2 3 = functionSetRegister c

/-! ## Raw operations -/

/-- R110: SEND_BITS, with its two checks in order. A number of bound lines that is neither 4 nor 8 is a custom wiring,
out of the spec (U14). -/
def Obligations.SendBitsTransfersOrFails : Prop :=
  ∀ (s : State) (v w : Byte),
    (s.pinsReady = false → exec (.sendBits v w) s = .next (s.afterResult .invalidState)) ∧
    (s.pinsReady = true → s.boundData.val ≠ w.toNat →
      exec (.sendBits v w) s = .next (s.afterResult .invalidArgument)) ∧
    (s.pinsReady = true → s.boundData = 8 → w = 8 → exec (.sendBits v w) s =
      .next ({ s with trace := s.trace ++ byteOnEight v, level := levelsAfterEight v s.level }.afterResult .ok)) ∧
    (s.pinsReady = true → s.boundData = 4 → w = 4 → exec (.sendBits v w) s =
      .next ({ s with trace := s.trace ++ lowNibbleOnFour v, level := levelsAfterFour v s.level }.afterResult .ok))

/-- R112: SEND_BYTE. Its third branch cannot be reached: the width is 4 or 8 (R13). -/
def Obligations.SendByteIsOneOrTwoTransfers : Prop :=
  ∀ (s : State) (v : Byte),
    (s.pinsReady = false → exec (.sendByte v) s = .next (s.afterResult .invalidState)) ∧
    (s.pinsReady = true → s.boundData ≠ widthLines s.settings.dataTransBits →
      exec (.sendByte v) s = .next (s.afterResult .invalidArgument)) ∧
    (s.pinsReady = true → s.settings.dataTransBits = .eight → s.boundData = 8 → exec (.sendByte v) s =
      .next ({ s with trace := s.trace ++ byteOnEight v, level := levelsAfterEight v s.level }.afterResult .ok)) ∧
    (s.pinsReady = true → s.settings.dataTransBits = .four → s.boundData = 4 → exec (.sendByte v) s =
      .next ({ s with trace := s.trace ++ byteOnFour v, level := levelsAfterFour v s.level }.afterResult .ok))

/-- R113: SEND_COMMAND writes RS once, then the byte; settings and cursor stay. -/
def Obligations.SendCommandPutsTheByteOnTheBus : Prop :=
  ∀ (s : State) (v : Byte),
    (s.pinsReady = false → exec (.sendCommand v) s = .next (s.afterResult .invalidState)) ∧
    (RawReady s → exec (.sendCommand v) s = .next ((s.afterCommand v).afterResult .ok))

/-- R114: SEND_DATA, and the cursor advances whatever the settings are. -/
def Obligations.SendDataAdvancesTheCursor : Prop :=
  ∀ (s : State) (v : Byte),
    (s.pinsReady = false → exec (.sendData v) s = .next (s.afterResult .invalidState)) ∧
    (RawReady s →
      exec (.sendData v) s = .next ({ s.afterData v with cursor := adv s.cursor }.afterResult .ok))

/-- 30_encoding.md section 2 and R83, R89: a wire row sends its byte, raw. For the rows R89 does not list this is the
model's reading (log entry 8); the literals are G1, G2 and G12. -/
def Obligations.WireRowsSendTheirByte : Prop :=
  ∀ s : State,
    (RawReady s →
      exec .clearDisplay s = .next ((s.afterCommand 0x01).afterResult .ok) ∧
      exec .returnHome s = .next ((s.afterCommand 0x02).afterResult .ok) ∧
      (∀ i sh : Bool, exec (.entryModeSet i sh) s =
        .next ((s.afterCommand (BitVec.ofNat 8 (0x04 + 2 * i.toNat + sh.toNat))).afterResult .ok)) ∧
      (∀ d c b : Bool, exec (.displayControl d c b) s =
        .next ((s.afterCommand (BitVec.ofNat 8 (0x08 + 4 * d.toNat + 2 * c.toNat + b.toNat))).afterResult .ok)) ∧
      exec .cursorLeft s = .next ((s.afterCommand 0x10).afterResult .ok) ∧
      exec .cursorRight s = .next ((s.afterCommand 0x14).afterResult .ok) ∧
      exec .displayLeft s = .next ((s.afterCommand 0x18).afterResult .ok) ∧
      exec .displayRight s = .next ((s.afterCommand 0x1C).afterResult .ok) ∧
      (∀ l n f : Bool, exec (.functionSet l n f) s =
        .next ((s.afterCommand (BitVec.ofNat 8 (0x20 + 16 * l.toNat + 8 * n.toNat + 4 * f.toNat))).afterResult .ok)) ∧
      (∀ a : BitVec 6, exec (.setCgramAddr a) s =
        .next ((s.afterCommand (BitVec.ofNat 8 (0x40 + a.toNat))).afterResult .ok)) ∧
      (∀ a : Address, exec (.setDdramAddr a) s =
        .next ((s.afterCommand (BitVec.ofNat 8 (0x80 + a.toNat))).afterResult .ok)) ∧
      (∀ v : Byte, exec (.dataByte v) s = .next ({ s.afterData v with cursor := adv s.cursor }.afterResult .ok))) ∧
    (s.pinsReady = false →
      ∀ (i sh d c b l n f : Bool) (a6 : BitVec 6) (a7 : Address) (v : Byte),
      ∀ j ∈ [.clearDisplay, .returnHome, .entryModeSet i sh, .displayControl d c b, .cursorLeft, .cursorRight,
        .displayLeft, .displayRight, .functionSet l n f, .setCgramAddr a6, .setDdramAddr a7, .dataByte v],
      exec j s = .next (s.afterResult .invalidState))

/-! ## Commands and settings -/

/-- R131: CLEAR. -/
def Obligations.ClearSendsWaitsAndHomesTheCursor : Prop :=
  ∀ s : State,
    (s.writeReady = false → exec .clear s = .next (s.afterResult .invalidState)) ∧
    (CookedReady s → exec .clear s =
      .next ({ (s.afterCommand 0x01).afterWait 2000 with cursor := 0x00 }.afterResult .ok))

/-- R132: HOME. -/
def Obligations.HomeSendsWaitsAndHomesTheCursor : Prop :=
  ∀ s : State,
    (s.writeReady = false → exec .home s = .next (s.afterResult .invalidState)) ∧
    (CookedReady s → exec .home s =
      .next ({ (s.afterCommand 0x02).afterWait 2000 with cursor := 0x00 }.afterResult .ok))

/-- R133, R134: the entry-mode setters. The field is stored before the gate, and the byte carries both fields after the
update. -/
def Obligations.EntryModeSettersStoreThenSend : Prop :=
  ∀ s : State,
    (∀ f : Byte, f ≠ 0 → f ≠ 1 →
      exec (.setAcAutoIncrease f) s = .next (s.afterResult .invalidArgument) ∧
      exec (.setDisplayFollowCursor f) s = .next (s.afterResult .invalidArgument)) ∧
    (∀ b : Bool, s.writeReady = false →
      exec (.setAcAutoIncrease (if b then 1 else 0)) s =
        .next ({ s with settings := { s.settings with acAutoIncrease := b } }.afterResult .invalidState) ∧
      exec (.setDisplayFollowCursor (if b then 1 else 0)) s =
        .next ({ s with settings := { s.settings with displayFollowCursor := b } }.afterResult .invalidState)) ∧
    (∀ b : Bool, CookedReady s →
      exec (.setAcAutoIncrease (if b then 1 else 0)) s =
        .next ((({ s with settings := { s.settings with acAutoIncrease := b } }.afterCommand
          (BitVec.ofNat 8 (0x04 + 2 * b.toNat + s.settings.displayFollowCursor.toNat))).afterWait
            tCmdUs).afterResult .ok) ∧
      exec (.setDisplayFollowCursor (if b then 1 else 0)) s =
        .next ((({ s with settings := { s.settings with displayFollowCursor := b } }.afterCommand
          (BitVec.ofNat 8 (0x04 + 2 * s.settings.acAutoIncrease.toNat + b.toNat))).afterWait
            tCmdUs).afterResult .ok))

/-- R135 to R137: the display-control setters. -/
def Obligations.DisplayControlSettersStoreThenSend : Prop :=
  ∀ s : State,
    (∀ f : Byte, f ≠ 0 → f ≠ 1 →
      exec (.setDisplayOn f) s = .next (s.afterResult .invalidArgument) ∧
      exec (.setCursorVisible f) s = .next (s.afterResult .invalidArgument) ∧
      exec (.setCursorBlink f) s = .next (s.afterResult .invalidArgument)) ∧
    (∀ b : Bool, s.writeReady = false →
      exec (.setDisplayOn (if b then 1 else 0)) s =
        .next ({ s with settings := { s.settings with displayOn := b } }.afterResult .invalidState) ∧
      exec (.setCursorVisible (if b then 1 else 0)) s =
        .next ({ s with settings := { s.settings with cursorVisible := b } }.afterResult .invalidState) ∧
      exec (.setCursorBlink (if b then 1 else 0)) s =
        .next ({ s with settings := { s.settings with cursorBlink := b } }.afterResult .invalidState)) ∧
    (∀ b : Bool, CookedReady s →
      exec (.setDisplayOn (if b then 1 else 0)) s =
        .next ((({ s with settings := { s.settings with displayOn := b } }.afterCommand
          (BitVec.ofNat 8 (0x08 + 4 * b.toNat + 2 * s.settings.cursorVisible.toNat +
            s.settings.cursorBlink.toNat))).afterWait tCmdUs).afterResult .ok) ∧
      exec (.setCursorVisible (if b then 1 else 0)) s =
        .next ((({ s with settings := { s.settings with cursorVisible := b } }.afterCommand
          (BitVec.ofNat 8 (0x08 + 4 * s.settings.displayOn.toNat + 2 * b.toNat +
            s.settings.cursorBlink.toNat))).afterWait tCmdUs).afterResult .ok) ∧
      exec (.setCursorBlink (if b then 1 else 0)) s =
        .next ((({ s with settings := { s.settings with cursorBlink := b } }.afterCommand
          (BitVec.ofNat 8 (0x08 + 4 * s.settings.displayOn.toNat + 2 * s.settings.cursorVisible.toNat +
            b.toNat))).afterWait tCmdUs).afterResult .ok))

/-- R139, R140: the two function-set setters that send. -/
def Obligations.FunctionSetSettersStoreThenSend : Prop :=
  ∀ s : State,
    (∀ n : Byte, n ≠ 1 → n ≠ 2 → exec (.setDisplayLines n) s = .next (s.afterResult .invalidArgument)) ∧
    (∀ n : Byte, n ≠ 0 → n ≠ 1 → exec (.setDotMatrix n) s = .next (s.afterResult .invalidArgument)) ∧
    (s.writeReady = false →
      (∀ x : LineCount, exec (.setDisplayLines (if x = LineCount.two then 2 else 1)) s =
        .next ({ s with settings := { s.settings with displayLines := x } }.afterResult .invalidState)) ∧
      (∀ x : DotMatrix, exec (.setDotMatrix (if x = DotMatrix.f5x10 then 1 else 0)) s =
        .next ({ s with settings := { s.settings with dotMatrix := x } }.afterResult .invalidState))) ∧
    (CookedReady s →
      (∀ x : LineCount, exec (.setDisplayLines (if x = LineCount.two then 2 else 1)) s =
        .next ((({ s with settings := { s.settings with displayLines := x } }.afterCommand
          (BitVec.ofNat 8 (0x20 + (if s.settings.dataTransBits = TransferWidth.eight then 0x10 else 0) +
            (if x = LineCount.two then 0x08 else 0) + (if s.settings.dotMatrix = DotMatrix.f5x10 then 0x04 else 0)))).afterWait
              tCmdUs).afterResult .ok)) ∧
      (∀ x : DotMatrix, exec (.setDotMatrix (if x = DotMatrix.f5x10 then 1 else 0)) s =
        .next ((({ s with settings := { s.settings with dotMatrix := x } }.afterCommand
          (BitVec.ofNat 8 (0x20 + (if s.settings.dataTransBits = TransferWidth.eight then 0x10 else 0) +
            (if s.settings.displayLines = LineCount.two then 0x08 else 0) + (if x = DotMatrix.f5x10 then 0x04 else 0)))).afterWait
              tCmdUs).afterResult .ok)))

/-- R138: SET_DATA_TRANS_BITS stores the width, clears the three flags, also for the width it had, and sends nothing;
whatever the flags were. -/
def Obligations.WidthChangeClearsReadinessAndSendsNothing : Prop :=
  ∀ s : State,
    exec (.setDataTransBits 4) s =
      .next ({ s with settings := { s.settings with dataTransBits := .four }, pinsReady := false, writeReady := false,
                      readReady := false }.afterResult .ok) ∧
    exec (.setDataTransBits 8) s =
      .next ({ s with settings := { s.settings with dataTransBits := .eight }, pinsReady := false, writeReady := false,
                      readReady := false }.afterResult .ok) ∧
    (∀ n : Byte, n ≠ 4 → n ≠ 8 → exec (.setDataTransBits n) s = .next (s.afterResult .invalidArgument))

/-! ## The cursor -/

/-- R161, R162: the two wrap functions on V, case by case. -/
def Obligations.AdvanceAndRetreatFollowTheWrapTable : Prop :=
  ∀ c : Address, inRows c = true →
    (adv c).toNat = (if c = 0x27 then 0x40 else if c = 0x67 then 0x00 else c.toNat + 1) ∧
    (ret c).toNat = (if c = 0x00 then 0x67 else if c = 0x40 then 0x27 else c.toNat - 1)

/-- 42_cursor.md section 1, the spec's own derivations from the two tables: on V, `adv` is one cycle of length 80, both
functions stay in V, and each undoes the other. -/
def Obligations.AdvanceIsOneCycleOfEightyAndRetreatUndoesIt : Prop :=
  (∀ c : Address, inRows c = true →
    inRows (adv c) = true ∧ inRows (ret c) = true ∧ ret (adv c) = c ∧ adv (ret c) = c ∧ Nat.iterate adv 80 c = c) ∧
  (∀ c : Address, inRows c = true → ∃ k : Fin 80, Nat.iterate adv k.val 0x00 = c)

/-- R164: SET_POSITION; the operand check comes before the gate. -/
def Obligations.SetPositionSendsTheAddressAndMovesTheCursor : Prop :=
  ∀ (s : State) (row column : Byte),
    (1 < row.toNat ∨ 39 < column.toNat →
      exec (.setPosition row column) s = .next (s.afterResult .invalidArgument)) ∧
    (row.toNat ≤ 1 → column.toNat ≤ 39 → s.writeReady = false →
      exec (.setPosition row column) s = .next (s.afterResult .invalidState)) ∧
    (row.toNat ≤ 1 → column.toNat ≤ 39 → CookedReady s →
      exec (.setPosition row column) s =
        .next ({ (s.afterCommand (BitVec.ofNat 8 (0x80 + (row.toNat * 0x40 + column.toNat)))).afterWait tCmdUs with
          cursor := BitVec.ofNat 7 (row.toNat * 0x40 + column.toNat) }.afterResult .ok))

/-- R165: MOVE_RIGHT, CURSOR_RIGHT within a row and a jump at its end. -/
def Obligations.MoveRightShiftsOrJumps : Prop :=
  ∀ s : State,
    (s.writeReady = false → exec .moveRight s = .next (s.afterResult .invalidState)) ∧
    (CookedReady s → s.cursor = 0x27 → exec .moveRight s =
      .next ({ (s.afterCommand 0xC0).afterWait tCmdUs with cursor := 0x40 }.afterResult .ok)) ∧
    (CookedReady s → s.cursor = 0x67 → exec .moveRight s =
      .next ({ (s.afterCommand 0x80).afterWait tCmdUs with cursor := 0x00 }.afterResult .ok)) ∧
    (CookedReady s → s.cursor ≠ 0x27 → s.cursor ≠ 0x67 → exec .moveRight s =
      .next ({ (s.afterCommand 0x14).afterWait tCmdUs with cursor := adv s.cursor }.afterResult .ok))

/-- R166: MOVE_LEFT, CURSOR_LEFT within a row and a jump at its start. -/
def Obligations.MoveLeftShiftsOrJumps : Prop :=
  ∀ s : State,
    (s.writeReady = false → exec .moveLeft s = .next (s.afterResult .invalidState)) ∧
    (CookedReady s → s.cursor = 0x00 → exec .moveLeft s =
      .next ({ (s.afterCommand 0xE7).afterWait tCmdUs with cursor := 0x67 }.afterResult .ok)) ∧
    (CookedReady s → s.cursor = 0x40 → exec .moveLeft s =
      .next ({ (s.afterCommand 0xA7).afterWait tCmdUs with cursor := 0x27 }.afterResult .ok)) ∧
    (CookedReady s → s.cursor ≠ 0x00 → s.cursor ≠ 0x40 → exec .moveLeft s =
      .next ({ (s.afterCommand 0x10).afterWait tCmdUs with cursor := ret s.cursor }.afterResult .ok))

/-- R167: MOVE_UP, and the case the spec gives no meaning. -/
def Obligations.MoveUpChangesTheRow : Prop :=
  ∀ s : State,
    (s.writeReady = false → exec .moveUp s = .next (s.afterResult .invalidState)) ∧
    (s.writeReady = true → s.cursor.toNat < 0x40 → exec .moveUp s = .refused .moveUpOnRow0) ∧
    (CookedReady s → 0x40 ≤ s.cursor.toNat → exec .moveUp s =
      .next ({ (s.afterCommand (BitVec.ofNat 8 (0x80 + (s.cursor.toNat - 0x40)))).afterWait tCmdUs with
        cursor := BitVec.ofNat 7 (s.cursor.toNat - 0x40) }.afterResult .ok))

/-- R168: MOVE_DOWN, and the case the spec gives no meaning. -/
def Obligations.MoveDownChangesTheRow : Prop :=
  ∀ s : State,
    (s.writeReady = false → exec .moveDown s = .next (s.afterResult .invalidState)) ∧
    (s.writeReady = true → 0x40 ≤ s.cursor.toNat → exec .moveDown s = .refused .moveDownOnRow1) ∧
    (CookedReady s → s.cursor.toNat < 0x40 → exec .moveDown s =
      .next ({ (s.afterCommand (BitVec.ofNat 8 (0x80 + (s.cursor.toNat + 0x40)))).afterWait tCmdUs with
        cursor := BitVec.ofNat 7 (s.cursor.toNat + 0x40) }.afterResult .ok))

/-! ## Initialisation -/

/-- R180: PINS_INIT. -/
def Obligations.PinsInitBindsTheWidthAndForgetsLevels : Prop :=
  ∀ s : State, ∃ t : State, exec .pinsInit s = .next (t.afterResult .ok) ∧
    t = { s with boundData := t.boundData, level := t.level, pinsReady := true } ∧
    t.boundData.val = (if s.settings.dataTransBits = .eight then 8 else 4) ∧
    ∀ sig : Signal, t.level.get sig = .unknown

/-- R181: INIT, the whole sequence, or the opening wait and InvalidState. -/
def Obligations.InitRunsTheTimedSequence : Prop :=
  ∀ s : State,
    (s.pinsReady = false → exec .init s = .next ((s.afterWait 15000).afterResult .invalidState)) ∧
    (RawReady s → exec .init s =
      let wake : Byte := if s.settings.dataTransBits = .eight then 0x30 else 0x20
      let t := (((s.afterWait 15000).afterCommand wake).afterWait 4100)
      let t := ((t.afterCommand wake).afterWait 100)
      let t := ((t.afterCommand wake).afterWait 40)
      let t := ((t.afterCommand (functionSetOf s.settings)).afterWait tCmdUs)
      let t := ((t.afterCommand 0x01).afterWait 2000)
      let t := ((t.afterCommand 0x02).afterWait 2000)
      let t := ((t.afterCommand (entryModeOf s.settings)).afterWait tCmdUs)
      let t := ((t.afterCommand (displayControlOf s.settings)).afterWait tCmdUs)
      .next ({ t with cursor := 0x00, writeReady := true }.afterResult .ok))

/-- 70_reset_and_hazards.md R232: from reset with any settings, PINS_INIT and then INIT give a block that accepts every
cooked operation, with the settings it was reset with and the cursor at 0. -/
def Obligations.PinsInitThenInitReadiesTheBlock : Prop :=
  ∀ c : Settings, ∃ t u : State,
    exec .pinsInit (State.resetWith c) = .next t ∧ exec .init t = .next u ∧
    CookedReady u ∧ u.settings = c ∧ u.cursor = 0x00 ∧ u.readReady = false ∧ u.results = [.ok, .ok]

/-! ## Lines -/

/-- R190: CLEAR_LINE, its 40 data writes, and the cursor on the other row. -/
def Obligations.ClearLineWritesFortySpaces : Prop :=
  ∀ (s : State) (row : Byte),
    (1 < row.toNat → exec (.clearLine row) s = .next (s.afterResult .invalidArgument)) ∧
    (row.toNat ≤ 1 → s.writeReady = false → exec (.clearLine row) s = .next (s.afterResult .invalidState)) ∧
    (row.toNat ≤ 1 → CookedReady s → exec (.clearLine row) s =
      .next ({ s with
        trace := s.trace ++ commandOnBus s.settings.dataTransBits (if row = 1 then 0xC0 else 0x80) ++ [Event.wait tCmdUs] ++
          (List.replicate 40 (dataOnBus s.settings.dataTransBits 0x20)).flatten
        level := ((s.afterCommand (if row = 1 then 0xC0 else 0x80)).afterData 0x20).level
        cursor := if row = 1 then 0x00 else 0x40 }.afterResult .ok))

/-- 44_line_ops.md (R191): PRINT_LINE, its traffic, its end cursor and its errors. That a text of more than 40 characters is
refused is the model's choice (DESIGN CHOICE, log entry 12): R191 gives it no meaning, and U6 names other treatments. -/
def Obligations.PrintLineWritesTheTextOnItsRow : Prop :=
  ∀ (s : State) (text : List Byte) (row : Byte),
    (40 < text.length → printLine text row s = .refused .printLineTooLong) ∧
    (text.length ≤ 40 → 1 < row.toNat → printLine text row s = .next (s.afterResult .invalidArgument)) ∧
    (text.length ≤ 40 → row.toNat ≤ 1 → s.writeReady = false →
      printLine text row s = .next (s.afterResult .invalidState)) ∧
    (text.length ≤ 40 → row.toNat ≤ 1 → CookedReady s → ∃ t : State, printLine text row s = .next t ∧
      t.cursor.toNat =
        (if text.length ≤ 39 then row.toNat * 0x40 + text.length else (1 - row.toNat) * 0x40) ∧
      t.trace = s.trace ++
        commandOnBus s.settings.dataTransBits (if row = 1 then 0xC0 else 0x80) ++ [Event.wait tCmdUs] ++
        (List.replicate 40 (dataOnBus s.settings.dataTransBits 0x20)).flatten ++
        commandOnBus s.settings.dataTransBits (if row = 1 then 0xC0 else 0x80) ++ [Event.wait tCmdUs] ++
        (text.map (dataOnBus s.settings.dataTransBits)).flatten ∧
      t.results = s.results ++ List.replicate (text.length + 2) .ok ∧
      t = { s with cursor := t.cursor, trace := t.trace, level := t.level, results := t.results })

/-! ## The whole machine -/

/-- 10_state.md section 8 (R25), R18 and R48: every step keeps the invariants. -/
def Obligations.StepKeepsTheInvariants : Prop :=
  ∀ s t : State, Invariant s → step s = .next t → Invariant t

/-- 10_state.md section 8: reset has them, for every RESET_SETTINGS. -/
def Obligations.ResetHasTheInvariants : Prop :=
  ∀ c : Settings, Invariant (State.resetWith c)

/-- R14 to R16: which instructions change a readiness flag. -/
def Obligations.ReadinessChangesOnlyWhereTheSpecSays : Prop :=
  ∀ (i : Instr) (s t : State), exec i s = .next t →
    (s.pinsReady = false → t.pinsReady = true → i = .pinsInit) ∧
    (s.writeReady = false → t.writeReady = true → i = .init) ∧
    (s.readReady = false → t.readReady = false) ∧
    ((s.pinsReady = true ∧ t.pinsReady = false) ∨ (s.writeReady = true ∧ t.writeReady = false) ∨
        (s.readReady = true ∧ t.readReady = false) →
      i = .setDataTransBits 4 ∨ i = .setDataTransBits 8)

/-- R7, R50, R200: a request is answered once, and nothing already observed changes. -/
def Obligations.EachRequestIsAnsweredOnce : Prop :=
  ∀ (s t : State) (r : Request) (rest : List Request), s.requests = r :: rest → step s = .next t →
    t.requests = rest ∧ (∃ x : Result, t.results = s.results ++ [x]) ∧ ∃ es : List Event, t.trace = s.trace ++ es

/-- R48: no instruction, in any state, raises RW; the block has no read path. -/
def Obligations.NoInstructionRaisesRW : Prop :=
  ∀ (i : Instr) (s t : State), exec i s = .next t →
    ∃ es : List Event, t.trace = s.trace ++ es ∧ Event.pin .rw true ∉ es

/-- R19: the levels follow the events an instruction emits, except that PINS_INIT forgets them. -/
def Obligations.LevelsFollowTheEvents : Prop :=
  ∀ (i : Instr) (s t : State), exec i s = .next t → i ≠ .pinsInit →
    ∃ es : List Event, t.trace = s.trace ++ es ∧ t.level = es.foldl PinLevels.drive s.level

/-- The frame of the settings (R11 to R13): a setter with a legal operand changes its own field and no other; nothing
else changes one. -/
def Obligations.SettingsFrame : Prop :=
  ∀ (i : Instr) (s t : State), exec i s = .next t → t.settings = storedSettings i s.settings

/-- The frame of the cursor and of the bound lines (R17, R18): the cursor moves only for the instructions R17 lists (and
DATA_BYTE, which is `send_data`), and only PINS_INIT writes `S.bound_data`. -/
def Obligations.CursorAndBoundLinesFrame : Prop :=
  ∀ (i : Instr) (s t : State), exec i s = .next t →
    (writesCursor i = false → t.cursor = s.cursor) ∧ (i ≠ .pinsInit → t.boundData = s.boundData)

/-- The frame of the pins: PINS_INIT and SET_DATA_TRANS_BITS emit nothing; SEND_BITS and SEND_BYTE leave RS alone (R117);
in 4-bit mode no instruction writes D0 to D3 (R45). -/
def Obligations.PinsFrame : Prop :=
  ∀ (i : Instr) (s t : State), exec i s = .next t →
    (i = .pinsInit ∨ (∃ n, i = .setDataTransBits n) → t.trace = s.trace) ∧
    ((∃ n, i = .setDataTransBits n) → t.level = s.level) ∧
    ((∃ v w, i = .sendBits v w) ∨ (∃ v, i = .sendByte v) → t.level.rs = s.level.rs) ∧
    (RawReady s → s.settings.dataTransBits = .four → i ≠ .pinsInit →
      t.level.d0 = s.level.d0 ∧ t.level.d1 = s.level.d1 ∧ t.level.d2 = s.level.d2 ∧ t.level.d3 = s.level.d3)

/-- 10_state.md section 8 (R25 item 6): an instruction that sends and returns OK leaves E and RW at 0. -/
def Obligations.SendingLeavesEnableLow : Prop :=
  ∀ (i : Instr) (s t : State), exec i s = .next t → t.results = s.results ++ [.ok] →
    i ≠ .pinsInit → (∀ n, i ≠ .setDataTransBits n) → t.level.e = .low ∧ t.level.rw = .low

/-- R201: when an instruction returns InvalidArgument, and that it then leaves nothing behind. -/
def Obligations.InvalidArgumentLeavesNothing : Prop :=
  ∀ (i : Instr) (s t : State), Invariant s → exec i s = .next t →
    (t.results = s.results ++ [.invalidArgument] ↔ badOperand i s) ∧
    (t.results = s.results ++ [.invalidArgument] → t = s.afterResult .invalidArgument)

/-- R202: when an instruction returns InvalidState, and what it then leaves behind. The wire rows count as raw (log entry
8). -/
def Obligations.InvalidStateLeavesWhatTheSpecLists : Prop :=
  ∀ (i : Instr) (s t : State), Invariant s → exec i s = .next t →
    (t.results = s.results ++ [.invalidState] ↔ lacksReadiness i s) ∧
    (t.results = s.results ++ [.invalidState] → t = (leftByInvalidState i s).afterResult .invalidState)

/-- R116: before INIT no cooked operation reaches the bus or moves the cursor, in any state. -/
def Obligations.CookedOperationsNeedWriteReady : Prop :=
  ∀ (i : Instr) (s t : State), cooked i = true → s.writeReady = false → exec i s = .next t →
    t.trace = s.trace ∧ t.level = s.level ∧ t.cursor = s.cursor ∧ t.results ≠ s.results ++ [.ok]

/-- R7: the step is total but for the one case the spec refuses, and nothing faults. -/
def Obligations.OnlyVerticalMovesAreRefused : Prop :=
  ∀ (i : Instr) (s : State),
    (∃ t, exec i s = .next t) ∨
    (i = .moveUp ∧ s.writeReady = true ∧ s.cursor.toNat < 0x40 ∧ exec i s = .refused .moveUpOnRow0) ∨
    (i = .moveDown ∧ s.writeReady = true ∧ 0x40 ≤ s.cursor.toNat ∧ exec i s = .refused .moveDownOnRow1)

/-- R16, R19: "No rule of the block reads" the levels, and none reads `S.read_ready`: two blocks that differ only there
do the same. -/
def Obligations.LevelsAndReadReadyAreNeverRead : Prop :=
  ∀ (i : Instr) (s t : State) (l : PinLevels) (b : Bool), exec i s = .next t →
    ∃ (l' : PinLevels) (b' : Bool),
      exec i { s with level := l, readReady := b } = .next { t with level := l', readReady := b' }

/-- R84: a receiver that knows the mode, reads the bus at each fall of E (G5) and in 4-bit mode pairs nibbles, the first one
high (G9; both from general knowledge, log entry 13), gets exactly the bytes sent, in both modes: the command bytes of
INIT (95_test_vectors.md V-INIT-1, V-INIT-2), the byte of SEND_COMMAND and SEND_DATA, and for PRINT_LINE the list of the
source's end-to-end example (S8) with its two address-sets, whatever the bus showed before. -/
def Obligations.ReceiverReadsTheBytesSent : Prop :=
  ∀ (s t : State) (u : BusView) (es : List Event), t.trace = s.trace ++ es →
    (∀ v : Byte, RawReady s → exec (.sendCommand v) s = .next t →
      received s.settings.dataTransBits u es = [(false, v)]) ∧
    (∀ v : Byte, RawReady s → exec (.sendData v) s = .next t →
      received s.settings.dataTransBits u es = [(true, v)]) ∧
    (RawReady s → exec .init s = .next t →
      received s.settings.dataTransBits u es =
        [wakeOf s.settings, wakeOf s.settings, wakeOf s.settings, functionSetOf s.settings, 0x01, 0x02,
          entryModeOf s.settings, displayControlOf s.settings].map fun v => (false, v)) ∧
    (∀ (text : List Byte) (row : Byte), CookedReady s → row.toNat ≤ 1 → printLine text row s = .next t →
      received s.settings.dataTransBits u es =
        (false, if row = 1 then 0xC0 else 0x80) :: List.replicate 40 (true, 0x20) ++
          (false, if row = 1 then 0xC0 else 0x80) :: text.map fun v => (true, v))

/-- 70_reset_and_hazards.md R246: minimum durations, for INIT, CLEAR, SEND_DATA and CLEAR_LINE. The figure of `tCmdUs` in
them is the spec's decision D8 (log entry 14). -/
def Obligations.MinimumDurations : Prop :=
  ∀ (s t : State) (es : List Event), t.trace = s.trace ++ es →
    (RawReady s → exec .init s = .next t →
      minDuration es = if s.settings.dataTransBits = .eight then 24168 else 24976) ∧
    (CookedReady s → exec .clear s = .next t →
      minDuration es = if s.settings.dataTransBits = .eight then 2101 else 2202) ∧
    (∀ v : Byte, RawReady s → exec (.sendData v) s = .next t →
      minDuration es = if s.settings.dataTransBits = .eight then 101 else 202) ∧
    (∀ row : Byte, row.toNat ≤ 1 → CookedReady s → exec (.clearLine row) s = .next t →
      minDuration es = if s.settings.dataTransBits = .eight then 4181 else 8322)
end

