-- ==== Sys2Proof/Laws/Decode.lean ====
section
/-! SUPPORT. The fields of a request word (R70): each is read back from the word made of it. -/

namespace Sys2Proof

@[simp] theorem opField_hostWord (op : BitVec 5) (a b : Byte) : opField (hostWord op a b) = op := by
  apply BitVec.eq_of_getLsbD_eq
  intro i hi
  have in_word : 16 + i < 21 := by omega
  have above_a : BitVec.getLsbD a (16 + i - 8) = false := BitVec.getLsbD_of_ge _ _ (by omega)
  have above_b : BitVec.getLsbD b (16 + i) = false := BitVec.getLsbD_of_ge _ _ (by omega)
  simp [opField, hostWord, hi, above_a, above_b, in_word]

@[simp] theorem aField_hostWord (op : BitVec 5) (a b : Byte) : aField (hostWord op a b) = a := by
  apply BitVec.eq_of_getLsbD_eq
  intro i hi
  simp [aField, hostWord, hi, (by omega : 8 + i < 21), (by omega : 8 + i < 16)]

@[simp] theorem bField_hostWord (op : BitVec 5) (a b : Byte) : bField (hostWord op a b) = b := by
  apply BitVec.eq_of_getLsbD_eq
  intro i hi
  simp [bField, hostWord, hi, (by omega : i < 21), (by omega : i < 16)]

end Sys2Proof
end

