-- ==== Sys2Proof/Laws/State.lean ====
section
/-! SUPPORT. What each named update of the state does to each field: one lemma per field per update. -/

namespace Sys2Proof.Machine

/-! ## `State.emit` -/

@[simp] theorem State.emit_settings (s : State) (es : List Event) :
    (s.emit es).settings = s.settings := rfl

@[simp] theorem State.emit_pinsReady (s : State) (es : List Event) :
    (s.emit es).pinsReady = s.pinsReady := rfl

@[simp] theorem State.emit_writeReady (s : State) (es : List Event) :
    (s.emit es).writeReady = s.writeReady := rfl

@[simp] theorem State.emit_readReady (s : State) (es : List Event) :
    (s.emit es).readReady = s.readReady := rfl

@[simp] theorem State.emit_cursor (s : State) (es : List Event) :
    (s.emit es).cursor = s.cursor := rfl

@[simp] theorem State.emit_boundData (s : State) (es : List Event) :
    (s.emit es).boundData = s.boundData := rfl

@[simp] theorem State.emit_level (s : State) (es : List Event) :
    (s.emit es).level = es.foldl PinLevels.drive s.level := rfl

@[simp] theorem State.emit_requests (s : State) (es : List Event) :
    (s.emit es).requests = s.requests := rfl

@[simp] theorem State.emit_trace (s : State) (es : List Event) :
    (s.emit es).trace = s.trace ++ es := rfl

@[simp] theorem State.emit_results (s : State) (es : List Event) :
    (s.emit es).results = s.results := rfl

/-! ## `State.setCursor` -/

@[simp] theorem State.setCursor_settings (s : State) (c : Address) :
    (s.setCursor c).settings = s.settings := rfl

@[simp] theorem State.setCursor_pinsReady (s : State) (c : Address) :
    (s.setCursor c).pinsReady = s.pinsReady := rfl

@[simp] theorem State.setCursor_writeReady (s : State) (c : Address) :
    (s.setCursor c).writeReady = s.writeReady := rfl

@[simp] theorem State.setCursor_readReady (s : State) (c : Address) :
    (s.setCursor c).readReady = s.readReady := rfl

@[simp] theorem State.setCursor_cursor (s : State) (c : Address) :
    (s.setCursor c).cursor = c := rfl

@[simp] theorem State.setCursor_boundData (s : State) (c : Address) :
    (s.setCursor c).boundData = s.boundData := rfl

@[simp] theorem State.setCursor_level (s : State) (c : Address) :
    (s.setCursor c).level = s.level := rfl

@[simp] theorem State.setCursor_requests (s : State) (c : Address) :
    (s.setCursor c).requests = s.requests := rfl

@[simp] theorem State.setCursor_trace (s : State) (c : Address) :
    (s.setCursor c).trace = s.trace := rfl

@[simp] theorem State.setCursor_results (s : State) (c : Address) :
    (s.setCursor c).results = s.results := rfl

/-! ## `State.setSettings` -/

@[simp] theorem State.setSettings_settings (s : State) (c : Settings) :
    (s.setSettings c).settings = c := rfl

@[simp] theorem State.setSettings_pinsReady (s : State) (c : Settings) :
    (s.setSettings c).pinsReady = s.pinsReady := rfl

@[simp] theorem State.setSettings_writeReady (s : State) (c : Settings) :
    (s.setSettings c).writeReady = s.writeReady := rfl

@[simp] theorem State.setSettings_readReady (s : State) (c : Settings) :
    (s.setSettings c).readReady = s.readReady := rfl

@[simp] theorem State.setSettings_cursor (s : State) (c : Settings) :
    (s.setSettings c).cursor = s.cursor := rfl

@[simp] theorem State.setSettings_boundData (s : State) (c : Settings) :
    (s.setSettings c).boundData = s.boundData := rfl

@[simp] theorem State.setSettings_level (s : State) (c : Settings) :
    (s.setSettings c).level = s.level := rfl

@[simp] theorem State.setSettings_requests (s : State) (c : Settings) :
    (s.setSettings c).requests = s.requests := rfl

@[simp] theorem State.setSettings_trace (s : State) (c : Settings) :
    (s.setSettings c).trace = s.trace := rfl

@[simp] theorem State.setSettings_results (s : State) (c : Settings) :
    (s.setSettings c).results = s.results := rfl

/-! ## `State.setBoundData` -/

@[simp] theorem State.setBoundData_settings (s : State) (n : Fin 9) :
    (s.setBoundData n).settings = s.settings := rfl

@[simp] theorem State.setBoundData_pinsReady (s : State) (n : Fin 9) :
    (s.setBoundData n).pinsReady = s.pinsReady := rfl

@[simp] theorem State.setBoundData_writeReady (s : State) (n : Fin 9) :
    (s.setBoundData n).writeReady = s.writeReady := rfl

@[simp] theorem State.setBoundData_readReady (s : State) (n : Fin 9) :
    (s.setBoundData n).readReady = s.readReady := rfl

@[simp] theorem State.setBoundData_cursor (s : State) (n : Fin 9) :
    (s.setBoundData n).cursor = s.cursor := rfl

@[simp] theorem State.setBoundData_boundData (s : State) (n : Fin 9) :
    (s.setBoundData n).boundData = n := rfl

@[simp] theorem State.setBoundData_level (s : State) (n : Fin 9) :
    (s.setBoundData n).level = s.level := rfl

@[simp] theorem State.setBoundData_requests (s : State) (n : Fin 9) :
    (s.setBoundData n).requests = s.requests := rfl

@[simp] theorem State.setBoundData_trace (s : State) (n : Fin 9) :
    (s.setBoundData n).trace = s.trace := rfl

@[simp] theorem State.setBoundData_results (s : State) (n : Fin 9) :
    (s.setBoundData n).results = s.results := rfl

/-! ## `State.forgetLevels` -/

@[simp] theorem State.forgetLevels_settings (s : State) :
    (s.forgetLevels).settings = s.settings := rfl

@[simp] theorem State.forgetLevels_pinsReady (s : State) :
    (s.forgetLevels).pinsReady = s.pinsReady := rfl

@[simp] theorem State.forgetLevels_writeReady (s : State) :
    (s.forgetLevels).writeReady = s.writeReady := rfl

@[simp] theorem State.forgetLevels_readReady (s : State) :
    (s.forgetLevels).readReady = s.readReady := rfl

@[simp] theorem State.forgetLevels_cursor (s : State) :
    (s.forgetLevels).cursor = s.cursor := rfl

@[simp] theorem State.forgetLevels_boundData (s : State) :
    (s.forgetLevels).boundData = s.boundData := rfl

@[simp] theorem State.forgetLevels_level (s : State) :
    (s.forgetLevels).level = PinLevels.allUnknown := rfl

@[simp] theorem State.forgetLevels_requests (s : State) :
    (s.forgetLevels).requests = s.requests := rfl

@[simp] theorem State.forgetLevels_trace (s : State) :
    (s.forgetLevels).trace = s.trace := rfl

@[simp] theorem State.forgetLevels_results (s : State) :
    (s.forgetLevels).results = s.results := rfl

/-! ## `State.report` -/

@[simp] theorem State.report_settings (s : State) (r : Result) :
    (s.report r).settings = s.settings := rfl

@[simp] theorem State.report_pinsReady (s : State) (r : Result) :
    (s.report r).pinsReady = s.pinsReady := rfl

@[simp] theorem State.report_writeReady (s : State) (r : Result) :
    (s.report r).writeReady = s.writeReady := rfl

@[simp] theorem State.report_readReady (s : State) (r : Result) :
    (s.report r).readReady = s.readReady := rfl

@[simp] theorem State.report_cursor (s : State) (r : Result) :
    (s.report r).cursor = s.cursor := rfl

@[simp] theorem State.report_boundData (s : State) (r : Result) :
    (s.report r).boundData = s.boundData := rfl

@[simp] theorem State.report_level (s : State) (r : Result) :
    (s.report r).level = s.level := rfl

@[simp] theorem State.report_requests (s : State) (r : Result) :
    (s.report r).requests = s.requests := rfl

@[simp] theorem State.report_trace (s : State) (r : Result) :
    (s.report r).trace = s.trace := rfl

@[simp] theorem State.report_results (s : State) (r : Result) :
    (s.report r).results = s.results ++ [r] := rfl

/-! ## `State.setPinsReady` -/

@[simp] theorem State.setPinsReady_settings (s : State) :
    (s.setPinsReady).settings = s.settings := rfl

@[simp] theorem State.setPinsReady_pinsReady (s : State) :
    (s.setPinsReady).pinsReady = true := rfl

@[simp] theorem State.setPinsReady_writeReady (s : State) :
    (s.setPinsReady).writeReady = s.writeReady := rfl

@[simp] theorem State.setPinsReady_readReady (s : State) :
    (s.setPinsReady).readReady = s.readReady := rfl

@[simp] theorem State.setPinsReady_cursor (s : State) :
    (s.setPinsReady).cursor = s.cursor := rfl

@[simp] theorem State.setPinsReady_boundData (s : State) :
    (s.setPinsReady).boundData = s.boundData := rfl

@[simp] theorem State.setPinsReady_level (s : State) :
    (s.setPinsReady).level = s.level := rfl

@[simp] theorem State.setPinsReady_requests (s : State) :
    (s.setPinsReady).requests = s.requests := rfl

@[simp] theorem State.setPinsReady_trace (s : State) :
    (s.setPinsReady).trace = s.trace := rfl

@[simp] theorem State.setPinsReady_results (s : State) :
    (s.setPinsReady).results = s.results := rfl

/-! ## `State.setWriteReady` -/

@[simp] theorem State.setWriteReady_settings (s : State) :
    (s.setWriteReady).settings = s.settings := rfl

@[simp] theorem State.setWriteReady_pinsReady (s : State) :
    (s.setWriteReady).pinsReady = s.pinsReady := rfl

@[simp] theorem State.setWriteReady_writeReady (s : State) :
    (s.setWriteReady).writeReady = true := rfl

@[simp] theorem State.setWriteReady_readReady (s : State) :
    (s.setWriteReady).readReady = s.readReady := rfl

@[simp] theorem State.setWriteReady_cursor (s : State) :
    (s.setWriteReady).cursor = s.cursor := rfl

@[simp] theorem State.setWriteReady_boundData (s : State) :
    (s.setWriteReady).boundData = s.boundData := rfl

@[simp] theorem State.setWriteReady_level (s : State) :
    (s.setWriteReady).level = s.level := rfl

@[simp] theorem State.setWriteReady_requests (s : State) :
    (s.setWriteReady).requests = s.requests := rfl

@[simp] theorem State.setWriteReady_trace (s : State) :
    (s.setWriteReady).trace = s.trace := rfl

@[simp] theorem State.setWriteReady_results (s : State) :
    (s.setWriteReady).results = s.results := rfl

/-! ## `State.clearReadiness` -/

@[simp] theorem State.clearReadiness_settings (s : State) :
    (s.clearReadiness).settings = s.settings := rfl

@[simp] theorem State.clearReadiness_pinsReady (s : State) :
    (s.clearReadiness).pinsReady = false := rfl

@[simp] theorem State.clearReadiness_writeReady (s : State) :
    (s.clearReadiness).writeReady = false := rfl

@[simp] theorem State.clearReadiness_readReady (s : State) :
    (s.clearReadiness).readReady = false := rfl

@[simp] theorem State.clearReadiness_cursor (s : State) :
    (s.clearReadiness).cursor = s.cursor := rfl

@[simp] theorem State.clearReadiness_boundData (s : State) :
    (s.clearReadiness).boundData = s.boundData := rfl

@[simp] theorem State.clearReadiness_level (s : State) :
    (s.clearReadiness).level = s.level := rfl

@[simp] theorem State.clearReadiness_requests (s : State) :
    (s.clearReadiness).requests = s.requests := rfl

@[simp] theorem State.clearReadiness_trace (s : State) :
    (s.clearReadiness).trace = s.trace := rfl

@[simp] theorem State.clearReadiness_results (s : State) :
    (s.clearReadiness).results = s.results := rfl

/-! ## `State.takeRequest` -/

@[simp] theorem State.takeRequest_settings (s : State) :
    (s.takeRequest).settings = s.settings := rfl

@[simp] theorem State.takeRequest_pinsReady (s : State) :
    (s.takeRequest).pinsReady = s.pinsReady := rfl

@[simp] theorem State.takeRequest_writeReady (s : State) :
    (s.takeRequest).writeReady = s.writeReady := rfl

@[simp] theorem State.takeRequest_readReady (s : State) :
    (s.takeRequest).readReady = s.readReady := rfl

@[simp] theorem State.takeRequest_cursor (s : State) :
    (s.takeRequest).cursor = s.cursor := rfl

@[simp] theorem State.takeRequest_boundData (s : State) :
    (s.takeRequest).boundData = s.boundData := rfl

@[simp] theorem State.takeRequest_level (s : State) :
    (s.takeRequest).level = s.level := rfl

@[simp] theorem State.takeRequest_requests (s : State) :
    (s.takeRequest).requests = s.requests.tail := rfl

@[simp] theorem State.takeRequest_trace (s : State) :
    (s.takeRequest).trace = s.trace := rfl

@[simp] theorem State.takeRequest_results (s : State) :
    (s.takeRequest).results = s.results := rfl

/-! ## `State.presentFirst` -/

@[simp] theorem State.presentFirst_settings (s : State) (r : Request) :
    (s.presentFirst r).settings = s.settings := rfl

@[simp] theorem State.presentFirst_pinsReady (s : State) (r : Request) :
    (s.presentFirst r).pinsReady = s.pinsReady := rfl

@[simp] theorem State.presentFirst_writeReady (s : State) (r : Request) :
    (s.presentFirst r).writeReady = s.writeReady := rfl

@[simp] theorem State.presentFirst_readReady (s : State) (r : Request) :
    (s.presentFirst r).readReady = s.readReady := rfl

@[simp] theorem State.presentFirst_cursor (s : State) (r : Request) :
    (s.presentFirst r).cursor = s.cursor := rfl

@[simp] theorem State.presentFirst_boundData (s : State) (r : Request) :
    (s.presentFirst r).boundData = s.boundData := rfl

@[simp] theorem State.presentFirst_level (s : State) (r : Request) :
    (s.presentFirst r).level = s.level := rfl

@[simp] theorem State.presentFirst_requests (s : State) (r : Request) :
    (s.presentFirst r).requests = r :: s.requests := rfl

@[simp] theorem State.presentFirst_trace (s : State) (r : Request) :
    (s.presentFirst r).trace = s.trace := rfl

@[simp] theorem State.presentFirst_results (s : State) (r : Request) :
    (s.presentFirst r).results = s.results := rfl

end Sys2Proof.Machine
end

