-- ==== Sys2Proof/Laws/Ops.lean ====
section
/-! SUPPORT. What each shared operation of Machine/Ops.lean can do, said once: the sequencing laws, the pin levels, the
events of a byte, and for each send procedure its outcome on a ready block, on a block whose pins are not ready, and
in general. -/

namespace Sys2Proof.Machine

/-! ## Sequencing

The proofs are `(rfl)`, so that simp keeps a proof term for these steps: as unfoldings, the kernel would compute
`sendSpaces 40` and the like to compare two continuations. -/

@[simp] theorem Flow.andThen_done (s : State) (k : State → Flow) : (Flow.done s).andThen k = k s := (rfl)

@[simp] theorem Flow.andThen_raised (e : ErrorKind) (s : State) (k : State → Flow) :
    (Flow.raised e s).andThen k = .raised e s := (rfl)

@[simp] theorem Flow.andThen_refused (r : Refusal) (k : State → Flow) :
    (Flow.refused r).andThen k = .refused r := (rfl)

@[simp] theorem Flow.complete_done (s : State) : (Flow.done s).complete = .next (s.report .ok) := (rfl)

@[simp] theorem Flow.complete_raised (e : ErrorKind) (s : State) :
    (Flow.raised e s).complete = .next (s.report e.result) := (rfl)

@[simp] theorem Flow.complete_refused (r : Refusal) : (Flow.refused r).complete = .refused r := (rfl)

@[simp] theorem require_true (e : ErrorKind) (s : State) : require true e s = .done s := (rfl)

@[simp] theorem require_false (e : ErrorKind) (s : State) : require false e s = .raised e s := (rfl)

theorem gate_ready (s : State) (k : State → Flow) (h : s.writeReady = true) :
    (requireWriteReady s).andThen k = k s := by
  simp [requireWriteReady, h]

theorem gate_not_ready (s : State) (k : State → Flow) (h : s.writeReady = false) :
    (requireWriteReady s).andThen k = .raised .invalidState s := by
  simp [requireWriteReady, h]

/-! ## The states of Safety.lean, field by field -/

@[simp] theorem State.afterCommand_settings (s : State) (v : Byte) :
    (s.afterCommand v).settings = s.settings := rfl

@[simp] theorem State.afterCommand_pinsReady (s : State) (v : Byte) :
    (s.afterCommand v).pinsReady = s.pinsReady := rfl

@[simp] theorem State.afterCommand_writeReady (s : State) (v : Byte) :
    (s.afterCommand v).writeReady = s.writeReady := rfl

@[simp] theorem State.afterCommand_readReady (s : State) (v : Byte) :
    (s.afterCommand v).readReady = s.readReady := rfl

@[simp] theorem State.afterCommand_cursor (s : State) (v : Byte) :
    (s.afterCommand v).cursor = s.cursor := rfl

@[simp] theorem State.afterCommand_boundData (s : State) (v : Byte) :
    (s.afterCommand v).boundData = s.boundData := rfl

@[simp] theorem State.afterCommand_level (s : State) (v : Byte) :
    (s.afterCommand v).level = { levelsAfterByte s.settings.dataTransBits v s.level with rs := .low } := rfl

@[simp] theorem State.afterCommand_requests (s : State) (v : Byte) :
    (s.afterCommand v).requests = s.requests := rfl

@[simp] theorem State.afterCommand_trace (s : State) (v : Byte) :
    (s.afterCommand v).trace = s.trace ++ commandOnBus s.settings.dataTransBits v := rfl

@[simp] theorem State.afterCommand_results (s : State) (v : Byte) :
    (s.afterCommand v).results = s.results := rfl

@[simp] theorem State.afterData_settings (s : State) (v : Byte) :
    (s.afterData v).settings = s.settings := rfl

@[simp] theorem State.afterData_pinsReady (s : State) (v : Byte) :
    (s.afterData v).pinsReady = s.pinsReady := rfl

@[simp] theorem State.afterData_writeReady (s : State) (v : Byte) :
    (s.afterData v).writeReady = s.writeReady := rfl

@[simp] theorem State.afterData_readReady (s : State) (v : Byte) :
    (s.afterData v).readReady = s.readReady := rfl

@[simp] theorem State.afterData_cursor (s : State) (v : Byte) :
    (s.afterData v).cursor = s.cursor := rfl

@[simp] theorem State.afterData_boundData (s : State) (v : Byte) :
    (s.afterData v).boundData = s.boundData := rfl

@[simp] theorem State.afterData_level (s : State) (v : Byte) :
    (s.afterData v).level = { levelsAfterByte s.settings.dataTransBits v s.level with rs := .high } := rfl

@[simp] theorem State.afterData_requests (s : State) (v : Byte) :
    (s.afterData v).requests = s.requests := rfl

@[simp] theorem State.afterData_trace (s : State) (v : Byte) :
    (s.afterData v).trace = s.trace ++ dataOnBus s.settings.dataTransBits v := rfl

@[simp] theorem State.afterData_results (s : State) (v : Byte) :
    (s.afterData v).results = s.results := rfl

@[simp] theorem State.afterWait_settings (s : State) (us : Nat) :
    (s.afterWait us).settings = s.settings := rfl

@[simp] theorem State.afterWait_pinsReady (s : State) (us : Nat) :
    (s.afterWait us).pinsReady = s.pinsReady := rfl

@[simp] theorem State.afterWait_writeReady (s : State) (us : Nat) :
    (s.afterWait us).writeReady = s.writeReady := rfl

@[simp] theorem State.afterWait_readReady (s : State) (us : Nat) :
    (s.afterWait us).readReady = s.readReady := rfl

@[simp] theorem State.afterWait_cursor (s : State) (us : Nat) :
    (s.afterWait us).cursor = s.cursor := rfl

@[simp] theorem State.afterWait_boundData (s : State) (us : Nat) :
    (s.afterWait us).boundData = s.boundData := rfl

@[simp] theorem State.afterWait_level (s : State) (us : Nat) :
    (s.afterWait us).level = s.level := rfl

@[simp] theorem State.afterWait_requests (s : State) (us : Nat) :
    (s.afterWait us).requests = s.requests := rfl

@[simp] theorem State.afterWait_trace (s : State) (us : Nat) :
    (s.afterWait us).trace = s.trace ++ [.wait us] := rfl

@[simp] theorem State.afterWait_results (s : State) (us : Nat) :
    (s.afterWait us).results = s.results := rfl

@[simp] theorem State.afterResult_settings (s : State) (r : Result) :
    (s.afterResult r).settings = s.settings := rfl

@[simp] theorem State.afterResult_pinsReady (s : State) (r : Result) :
    (s.afterResult r).pinsReady = s.pinsReady := rfl

@[simp] theorem State.afterResult_writeReady (s : State) (r : Result) :
    (s.afterResult r).writeReady = s.writeReady := rfl

@[simp] theorem State.afterResult_readReady (s : State) (r : Result) :
    (s.afterResult r).readReady = s.readReady := rfl

@[simp] theorem State.afterResult_cursor (s : State) (r : Result) :
    (s.afterResult r).cursor = s.cursor := rfl

@[simp] theorem State.afterResult_boundData (s : State) (r : Result) :
    (s.afterResult r).boundData = s.boundData := rfl

@[simp] theorem State.afterResult_level (s : State) (r : Result) :
    (s.afterResult r).level = s.level := rfl

@[simp] theorem State.afterResult_requests (s : State) (r : Result) :
    (s.afterResult r).requests = s.requests := rfl

@[simp] theorem State.afterResult_trace (s : State) (r : Result) :
    (s.afterResult r).trace = s.trace := rfl

@[simp] theorem State.afterResult_results (s : State) (r : Result) :
    (s.afterResult r).results = s.results ++ [r] := rfl

theorem RawReady.afterCommand {s : State} (h : RawReady s) (v : Byte) : RawReady (s.afterCommand v) := h

theorem RawReady.afterData {s : State} (h : RawReady s) (v : Byte) : RawReady (s.afterData v) := h

theorem RawReady.afterWait {s : State} (h : RawReady s) (us : Nat) : RawReady (s.afterWait us) := h

theorem RawReady.setCursor {s : State} (h : RawReady s) (c : Address) : RawReady (s.setCursor c) := h

theorem State.setCursor_afterCommand (s : State) (c : Address) (v : Byte) :
    (s.setCursor c).afterCommand v = (s.afterCommand v).setCursor c := rfl

theorem State.setCursor_afterData (s : State) (c : Address) (v : Byte) :
    (s.setCursor c).afterData v = (s.afterData v).setCursor c := rfl

theorem State.setCursor_afterWait (s : State) (c : Address) (us : Nat) :
    (s.setCursor c).afterWait us = (s.afterWait us).setCursor c := rfl

theorem State.setCursor_setCursor (s : State) (a b : Address) : (s.setCursor a).setCursor b = s.setCursor b := rfl

/-! ## Pin levels -/

theorem PinLevels.get_set_same (l : PinLevels) (sig : Signal) (v : Level) : (l.set sig v).get sig = v := by
  cases sig <;> rfl

theorem PinLevels.get_set_other (l : PinLevels) (sig other : Signal) (v : Level) (h : other ≠ sig) :
    (l.set sig v).get other = l.get other := by
  cases sig <;> cases other <;> first | rfl | exact absurd rfl h

theorem State.emit_emit (s : State) (a b : List Event) : (s.emit a).emit b = s.emit (a ++ b) := by
  simp [State.emit]

/-! ## The events of a byte -/

theorem transfer_eight (v : Byte) : transfer v 8 = byteOnEight v := rfl

theorem transfer_four_low (v : Byte) : transfer v 4 = lowNibbleOnFour v := rfl

/-- The two nibbles of R112, as R44 puts them on the lines. -/
theorem transfer_nibbles (v : Byte) : transfer (v >>> 4) 4 ++ transfer (v &&& 0x0F) 4 = byteOnFour v := by
  have low : transfer (v &&& 0x0F) 4 = lowNibbleOnFour v := by
    simp [transfer_four_low, lowNibbleOnFour]
  have high : transfer (v >>> 4) 4 = [.pin .rw false, .pin .d4 (v.getLsbD 4), .pin .d5 (v.getLsbD 5),
      .pin .d6 (v.getLsbD 6), .pin .d7 (v.getLsbD 7)] ++ pulse := by
    simp [transfer_four_low, lowNibbleOnFour]
  rw [low, high, byteOnFour]

/-- R19: the levels after the events of a byte are the ones written out in Safety.lean. -/
theorem drive_byteOnBus (w : TransferWidth) (v : Byte) (l : PinLevels) :
    (byteOnBus w v).foldl PinLevels.drive l = levelsAfterByte w v l := by
  cases w <;> rfl

theorem drive_commandOnBus (w : TransferWidth) (v : Byte) (l : PinLevels) :
    (commandOnBus w v).foldl PinLevels.drive l = { levelsAfterByte w v l with rs := .low } := by
  cases w <;> rfl

theorem drive_dataOnBus (w : TransferWidth) (v : Byte) (l : PinLevels) :
    (dataOnBus w v).foldl PinLevels.drive l = { levelsAfterByte w v l with rs := .high } := by
  cases w <;> rfl

theorem emit_commandOnBus (s : State) (v : Byte) :
    s.emit (commandOnBus s.settings.dataTransBits v) = s.afterCommand v := by
  simp [State.emit, State.afterCommand, drive_commandOnBus]

theorem emit_dataOnBus (s : State) (v : Byte) :
    s.emit (dataOnBus s.settings.dataTransBits v) = s.afterData v := by
  simp [State.emit, State.afterData, drive_dataOnBus]

theorem emit_wait (s : State) (us : Nat) : s.emit [.wait us] = s.afterWait us := rfl

theorem report_eq_afterResult (s : State) (r : Result) : s.report r = s.afterResult r := rfl

/-! ## The send procedures on a ready block -/

theorem sendBits_ready (s : State) (v : Byte) (w : Nat) (hp : s.pinsReady = true) (hw : s.boundData.val = w) :
    sendBits v w s = .done (s.emit (transfer v w)) := by
  simp [sendBits, requirePinsReady, hp, hw]

theorem sendByte_ready (s : State) (v : Byte) (h : RawReady s) :
    sendByte v s = .done (s.emit (byteOnBus s.settings.dataTransBits v)) := by
  obtain ⟨hp, hb⟩ := h
  unfold sendByte
  split
  next hw =>
    rw [sendBits_ready s _ 4 hp (by simp [hb, hw, widthLines]), Flow.andThen_done,
      sendBits_ready (s.emit _) _ 4 (by simpa using hp) (by simp [hb, hw, widthLines]), State.emit_emit,
      transfer_nibbles, hw, byteOnBus]
  next hw =>
    rw [sendBits_ready s _ 8 hp (by simp [hb, hw, widthLines]), transfer_eight, hw, byteOnBus]

theorem sendCommand_ready (s : State) (v : Byte) (h : RawReady s) :
    sendCommand v s = .done (s.afterCommand v) := by
  have h' : RawReady (s.emit [.pin .rs false]) := h
  rw [sendCommand, requirePinsReady, h.1, require_true, Flow.andThen_done, sendByte_ready _ _ h', State.emit_emit,
    ← emit_commandOnBus]
  rfl

theorem sendData_ready (s : State) (v : Byte) (h : RawReady s) :
    sendData v s = .done ((s.afterData v).setCursor (adv s.cursor)) := by
  have h' : RawReady (s.emit [.pin .rs true]) := h
  rw [sendData, requirePinsReady, h.1, require_true, Flow.andThen_done, sendByte_ready _ _ h', Flow.andThen_done,
    State.emit_emit, ← emit_dataOnBus]
  rfl

theorem sendCommandAndWait_ready (s : State) (v : Byte) (us : Nat) (h : RawReady s) :
    sendCommandAndWait v us s = .done ((s.afterCommand v).afterWait us) := by
  rw [sendCommandAndWait, sendCommand_ready s v h, Flow.andThen_done, emit_wait]

theorem commandThenCursor_ready (s : State) (v : Byte) (n : Address) (h : RawReady s) :
    commandThenCursor v n s = .done (((s.afterCommand v).afterWait tCmdUs).setCursor n) := by
  simp [commandThenCursor, sendCommandAndWait_ready s v tCmdUs h]

theorem jumpTo_ready (s : State) (n : Address) (h : RawReady s) :
    jumpTo n s = .done (((s.afterCommand (ddramByte n)).afterWait tCmdUs).setCursor n) :=
  commandThenCursor_ready s _ n h

/-! ## With pins not ready -/

theorem sendBits_not_ready (s : State) (v : Byte) (w : Nat) (hp : s.pinsReady = false) :
    sendBits v w s = .raised .invalidState s := by
  simp [sendBits, requirePinsReady, hp]

theorem sendByte_not_ready (s : State) (v : Byte) (hp : s.pinsReady = false) :
    sendByte v s = .raised .invalidState s := by
  unfold sendByte
  split <;> simp [sendBits_not_ready s _ _ hp]

theorem sendCommand_not_ready (s : State) (v : Byte) (hp : s.pinsReady = false) :
    sendCommand v s = .raised .invalidState s := by
  simp [sendCommand, requirePinsReady, hp]

theorem sendData_not_ready (s : State) (v : Byte) (hp : s.pinsReady = false) :
    sendData v s = .raised .invalidState s := by
  simp [sendData, requirePinsReady, hp]

theorem sendCommandAndWait_not_ready (s : State) (v : Byte) (us : Nat) (hp : s.pinsReady = false) :
    sendCommandAndWait v us s = .raised .invalidState s := by
  simp [sendCommandAndWait, sendCommand_not_ready s v hp]

/-! ## Everything a send procedure can do, in any state -/

/-- No event raises RW (R48). -/
abbrev WriteOnly (es : List Event) : Prop := Event.pin .rw true ∉ es

theorem line_ne_rw (w i : Nat) : line w i ≠ .rw := by
  have data (k : Fin 8) : dataLine k ≠ .rw := by
    revert k; decide
  unfold line
  split
  · exact data _
  · split <;> exact data _

theorem transfer_writeOnly (v : Byte) (w : Nat) : WriteOnly (transfer v w) := by
  simp only [WriteOnly, transfer, dataPins, strobe, List.mem_cons, List.mem_append, List.mem_map, not_or]
  refine ⟨by simp, ?_, by simp⟩
  rintro ⟨i, -, h⟩
  exact line_ne_rw w i (by simpa using congrArg (fun | .pin s _ => s | _ => .rs) h)

/-- The part of an operation that only emits: it ends with some write-only events on the trace, done or stopped. -/
def EmitsOnly (f : Flow) (s : State) : Prop :=
  ∃ es, WriteOnly es ∧ (f = .done (s.emit es) ∨ ∃ e, f = .raised e (s.emit es))

theorem emitsOnly_raised (s : State) (e : ErrorKind) : EmitsOnly (.raised e s) s :=
  ⟨[], by decide, .inr ⟨e, by simp [State.emit]⟩⟩

theorem emitsOnly_emit (s : State) (es : List Event) (h : WriteOnly es) : EmitsOnly (.done (s.emit es)) s :=
  ⟨es, h, .inl rfl⟩

/-- Emitting in sequence is emitting. -/
theorem EmitsOnly.andThen {f : Flow} {s : State} {k : State → Flow} (hf : EmitsOnly f s)
    (hk : ∀ t, EmitsOnly (k t) t) : EmitsOnly (f.andThen k) s := by
  obtain ⟨a, ha, rfl | ⟨e, rfl⟩⟩ := hf
  · obtain ⟨b, hb, h⟩ := hk (s.emit a)
    rw [State.emit_emit] at h
    refine ⟨a ++ b, by simp [WriteOnly] at *; exact ⟨ha, hb⟩, ?_⟩
    simpa using h
  · exact ⟨a, ha, .inr ⟨e, rfl⟩⟩

theorem emitsOnly_require (c : Bool) (e : ErrorKind) (s : State) : EmitsOnly (require c e s) s := by
  cases c
  · exact emitsOnly_raised s e
  · exact ⟨[], by decide, .inl (by simp [State.emit])⟩

theorem sendBits_emitsOnly (v : Byte) (w : Nat) (s : State) : EmitsOnly (sendBits v w s) s :=
  (emitsOnly_require _ _ s).andThen fun _ =>
    (emitsOnly_require _ _ _).andThen fun t => emitsOnly_emit t _ (transfer_writeOnly v w)

theorem sendByte_emitsOnly (v : Byte) (s : State) : EmitsOnly (sendByte v s) s := by
  unfold sendByte
  split
  · exact (sendBits_emitsOnly _ _ s).andThen (sendBits_emitsOnly _ _)
  · exact sendBits_emitsOnly _ _ s

theorem sendCommand_emitsOnly (v : Byte) (s : State) : EmitsOnly (sendCommand v s) s :=
  (emitsOnly_require _ _ s).andThen fun t =>
    (emitsOnly_emit t [.pin .rs false] (by decide)).andThen (sendByte_emitsOnly v)

theorem sendCommandAndWait_emitsOnly (v : Byte) (us : Nat) (s : State) :
    EmitsOnly (sendCommandAndWait v us s) s :=
  (sendCommand_emitsOnly v s).andThen fun t => emitsOnly_emit t [.wait us] (by simp [WriteOnly])

/-- `send_data` emits, and on success moves the cursor by `adv` after the byte (R114). -/
theorem sendData_cases (v : Byte) (s : State) : ∃ es, WriteOnly es ∧
    (sendData v s = .done ((s.emit es).setCursor (adv s.cursor)) ∨ ∃ e, sendData v s = .raised e (s.emit es)) := by
  have h : EmitsOnly ((requirePinsReady s).andThen fun s => sendByte v (s.emit [.pin .rs true])) s :=
    (emitsOnly_require _ _ s).andThen fun t =>
      (emitsOnly_emit t [.pin .rs true] (by decide)).andThen (sendByte_emitsOnly v)
  have split : sendData v s =
      ((requirePinsReady s).andThen fun s => sendByte v (s.emit [.pin .rs true])).andThen fun s =>
        .done (s.setCursor (adv s.cursor)) := by
    unfold sendData
    cases requirePinsReady s <;> rfl
  obtain ⟨es, hes, h | ⟨e, h⟩⟩ := h
  · exact ⟨es, hes, .inl (by rw [split, h]; rfl)⟩
  · exact ⟨es, hes, .inr ⟨e, by rw [split, h]; rfl⟩⟩

end Sys2Proof.Machine
end

