-- ==== Sys2Proof/Laws/Exec.lean ====
section
/-! SUPPORT. What an instruction can do, said once for every instruction and every state: `exec_cases`. Every frame and
invariant follows from it without unfolding a meaning. -/

namespace Sys2Proof.Machine

/-- What the sending part of an operation may change between two states: write-only events on the trace, which the levels
follow; the cursor if `moves`; `write_ready` set if `readies`. Nothing else. -/
structure Effect (moves readies : Bool) (s t : State) : Prop where
  settings : t.settings = s.settings
  pinsReady : t.pinsReady = s.pinsReady
  writeReady : t.writeReady = s.writeReady ∨ (readies = true ∧ t.writeReady = true)
  readReady : t.readReady = s.readReady
  cursor : moves = false → t.cursor = s.cursor
  boundData : t.boundData = s.boundData
  requests : t.requests = s.requests
  results : t.results = s.results
  emits : ∃ es, WriteOnly es ∧ t.trace = s.trace ++ es ∧ t.level = es.foldl PinLevels.drive s.level

theorem Effect.refl (m r : Bool) (s : State) : Effect m r s s :=
  ⟨rfl, rfl, .inl rfl, rfl, fun _ => rfl, rfl, rfl, rfl, [], by decide, by simp, rfl⟩

theorem Effect.trans {m r : Bool} {s t u : State} (h : Effect m r s t) (g : Effect m r t u) : Effect m r s u := by
  obtain ⟨a, wa, ta, la⟩ := h.emits
  obtain ⟨b, wb, tb, lb⟩ := g.emits
  refine ⟨g.settings.trans h.settings, g.pinsReady.trans h.pinsReady, ?_, g.readReady.trans h.readReady,
    fun e => (g.cursor e).trans (h.cursor e), g.boundData.trans h.boundData, g.requests.trans h.requests,
    g.results.trans h.results, a ++ b, ?_, ?_, ?_⟩
  · rcases g.writeReady with e | e
    · rw [e]; exact h.writeReady
    · exact .inr e
  · simp only [WriteOnly, List.mem_append, not_or]; exact ⟨wa, wb⟩
  · rw [tb, ta, List.append_assoc]
  · rw [lb, la, List.foldl_append]

/-- A flow from `s` ends, done or stopped by an error, in a state with that effect. -/
def HasEffect (m r : Bool) (f : Flow) (s : State) : Prop :=
  match f with
  | .done t => Effect m r s t
  | .raised _ t => Effect m r s t
  | .refused _ => True

theorem HasEffect.andThen {m r : Bool} {f : Flow} {s : State} {k : State → Flow} (h : HasEffect m r f s)
    (hk : ∀ t, HasEffect m r (k t) t) : HasEffect m r (f.andThen k) s := by
  cases f with
  | done t =>
    have g := hk t
    revert g
    show HasEffect m r (k t) t → HasEffect m r (k t) s
    cases k t with
    | done u => exact fun g => h.trans g
    | raised e u => exact fun g => h.trans g
    | refused x => exact id
  | raised e t => exact h
  | refused x => trivial

theorem hasEffect_require (m r c : Bool) (e : ErrorKind) (s : State) : HasEffect m r (require c e s) s := by
  cases c <;> exact Effect.refl _ _ _

theorem hasEffect_emit (m r : Bool) (s : State) (es : List Event) (h : WriteOnly es) :
    HasEffect m r (.done (s.emit es)) s :=
  ⟨rfl, rfl, .inl rfl, rfl, fun _ => rfl, rfl, rfl, rfl, es, h, rfl, rfl⟩

theorem EmitsOnly.hasEffect {m r : Bool} {f : Flow} {s : State} (h : EmitsOnly f s) : HasEffect m r f s := by
  obtain ⟨es, he, rfl | ⟨e, rfl⟩⟩ := h <;> exact hasEffect_emit m r s es he

theorem hasEffect_setCursor (r : Bool) (s : State) (c : Address) : HasEffect true r (.done (s.setCursor c)) s :=
  ⟨rfl, rfl, .inl rfl, rfl, fun h => (nomatch h), rfl, rfl, rfl, [], by decide, by simp, rfl⟩

theorem hasEffect_setWriteReady (m : Bool) (s : State) : HasEffect m true (.done s.setWriteReady) s :=
  ⟨rfl, rfl, .inr ⟨rfl, rfl⟩, rfl, fun _ => rfl, rfl, rfl, rfl, [], by decide, by simp, rfl⟩

theorem hasEffect_sendData (r : Bool) (v : Byte) (s : State) : HasEffect true r (sendData v s) s :=
  (hasEffect_require _ _ _ _ s).andThen fun t =>
    ((emitsOnly_emit t [.pin .rs true] (by decide)).andThen (sendByte_emitsOnly v)).hasEffect.andThen fun t =>
      hasEffect_setCursor r t _

theorem hasEffect_sendCommandAndWait (m r : Bool) (v : Byte) (us : Nat) (s : State) :
    HasEffect m r (sendCommandAndWait v us s) s := (sendCommandAndWait_emitsOnly v us s).hasEffect

theorem hasEffect_gate {m r : Bool} {k : State → Flow} (s : State) (hk : ∀ t, HasEffect m r (k t) t) :
    HasEffect m r ((requireWriteReady s).andThen k) s := (hasEffect_require _ _ _ _ s).andThen hk

theorem hasEffect_commandThenCursor (r : Bool) (v : Byte) (n : Address) (s : State) :
    HasEffect true r (commandThenCursor v n s) s :=
  (hasEffect_sendCommandAndWait _ _ _ _ s).andThen fun t => hasEffect_setCursor r t n

theorem hasEffect_jumpTo (r : Bool) (n : Address) (s : State) : HasEffect true r (jumpTo n s) s :=
  hasEffect_commandThenCursor r _ n s

theorem hasEffect_clearBody (r : Bool) (s : State) : HasEffect true r (clearBody s) s :=
  (hasEffect_sendCommandAndWait _ _ _ _ s).andThen fun t => hasEffect_setCursor r t _

theorem hasEffect_homeBody (r : Bool) (s : State) : HasEffect true r (homeBody s) s :=
  (hasEffect_sendCommandAndWait _ _ _ _ s).andThen fun t => hasEffect_setCursor r t _

theorem hasEffect_sendSpaces (r : Bool) (n : Nat) (s : State) : HasEffect true r (sendSpaces n s) s := by
  induction n generalizing s with
  | zero => exact Effect.refl _ _ _
  | succ n ih => exact (hasEffect_sendData r _ s).andThen ih

theorem hasEffect_initSequence (s : State) : HasEffect true true (initSequence s) s := by
  have opening : HasEffect true true (.done (s.emit [.wait tPwr])) s := hasEffect_emit _ _ _ _ (by decide)
  have wake (us : Nat) (t : State) : HasEffect true true (wakeUp us t) t := hasEffect_sendCommandAndWait _ _ _ _ t
  have apply (c : Settings → Byte) (t : State) : HasEffect true true (applySettings c t) t :=
    hasEffect_sendCommandAndWait _ _ _ _ t
  exact (opening.andThen (wake tW1)).andThen fun t => (wake _ t).andThen fun t => (wake _ t).andThen fun t =>
    (apply _ t).andThen fun t => (hasEffect_clearBody true t).andThen fun t =>
    (hasEffect_homeBody true t).andThen fun t => (apply _ t).andThen fun t => (apply _ t).andThen fun t =>
    hasEffect_setWriteReady true t

/-- A setter has its effect from the state with its operand, if legal, stored. -/
theorem hasEffect_setter {α : Type} (m r : Bool) (operand : Option α) (store : α → Settings → Settings)
    (command : Settings → Byte) (s : State) :
    HasEffect m r (setter operand store command s)
      (s.setSettings (operand.elim s.settings fun v => store v s.settings)) := by
  cases operand with
  | none => exact Effect.refl _ _ _
  | some v => exact hasEffect_gate _ fun t => hasEffect_sendCommandAndWait _ _ _ _ t

theorem flagOperand_elim (f : Byte) (store : Bool → Settings → Settings) (c : Settings) :
    (flagOperand f).elim c (fun v => store v c) = if f = 0 ∨ f = 1 then store (f == 1) c else c := by
  by_cases h0 : f = 0
  · subst h0; rfl
  · by_cases h1 : f = 1
    · subst h1; rfl
    · simp only [flagOperand, h0, h1, or_self, if_false, Option.elim_none]

theorem linesOperand_elim (n : Byte) (c : Settings) :
    ((linesOperand n).elim c fun v => { c with displayLines := v }) = storedSettings (.setDisplayLines n) c := by
  by_cases h1 : n = 1
  · subst h1; rfl
  · by_cases h2 : n = 2
    · subst h2; rfl
    · simp only [linesOperand, storedSettings, h1, h2, if_false, Option.elim_none]

theorem fontOperand_elim (n : Byte) (c : Settings) :
    ((fontOperand n).elim c fun v => { c with dotMatrix := v }) = storedSettings (.setDotMatrix n) c := by
  by_cases h0 : n = 0
  · subst h0; rfl
  · by_cases h1 : n = 1
    · subst h1; rfl
    · simp only [fontOperand, storedSettings, h0, h1, if_false, Option.elim_none]

/-- The flow of an instruction other than PINS_INIT and SET_DATA_TRANS_BITS, with its effect from the state in which a
setter has stored its operand. -/
theorem exec_flow (i : Instr) (s : State) (hp : i ≠ .pinsInit) (hw : ∀ n, i ≠ .setDataTransBits n) :
    ∃ f : Flow, exec i s = f.complete ∧
      HasEffect (writesCursor i) (i == .init) f (s.setSettings (storedSettings i s.settings)) := by
  cases i with
  | pinsInit => exact absurd rfl hp
  | setDataTransBits n => exact absurd rfl (hw n)
  | sendBits v w => exact ⟨_, rfl, (sendBits_emitsOnly v w.toNat s).hasEffect⟩
  | sendByte v => exact ⟨_, rfl, (sendByte_emitsOnly v s).hasEffect⟩
  | sendCommand v => exact ⟨_, rfl, (sendCommand_emitsOnly v s).hasEffect⟩
  | sendData v => exact ⟨_, rfl, hasEffect_sendData _ v s⟩
  | clear => exact ⟨_, rfl, hasEffect_gate s (hasEffect_clearBody _)⟩
  | home => exact ⟨_, rfl, hasEffect_gate s (hasEffect_homeBody _)⟩
  | setAcAutoIncrease f =>
    refine ⟨setter (flagOperand f) (fun v c => { c with acAutoIncrease := v }) entryModeOf s, rfl, ?_⟩
    have h := hasEffect_setter false false (flagOperand f) (fun v c => { c with acAutoIncrease := v }) entryModeOf s
    rw [flagOperand_elim f (fun v c => { c with acAutoIncrease := v })] at h
    exact h
  | setDisplayFollowCursor f =>
    refine ⟨setter (flagOperand f) (fun v c => { c with displayFollowCursor := v }) entryModeOf s, rfl, ?_⟩
    have h := hasEffect_setter false false (flagOperand f) (fun v c => { c with displayFollowCursor := v }) entryModeOf s
    rw [flagOperand_elim f (fun v c => { c with displayFollowCursor := v })] at h
    exact h
  | setDisplayOn f =>
    refine ⟨setter (flagOperand f) (fun v c => { c with displayOn := v }) displayControlOf s, rfl, ?_⟩
    have h := hasEffect_setter false false (flagOperand f) (fun v c => { c with displayOn := v }) displayControlOf s
    rw [flagOperand_elim f (fun v c => { c with displayOn := v })] at h
    exact h
  | setCursorVisible f =>
    refine ⟨setter (flagOperand f) (fun v c => { c with cursorVisible := v }) displayControlOf s, rfl, ?_⟩
    have h := hasEffect_setter false false (flagOperand f) (fun v c => { c with cursorVisible := v }) displayControlOf s
    rw [flagOperand_elim f (fun v c => { c with cursorVisible := v })] at h
    exact h
  | setCursorBlink f =>
    refine ⟨setter (flagOperand f) (fun v c => { c with cursorBlink := v }) displayControlOf s, rfl, ?_⟩
    have h := hasEffect_setter false false (flagOperand f) (fun v c => { c with cursorBlink := v }) displayControlOf s
    rw [flagOperand_elim f (fun v c => { c with cursorBlink := v })] at h
    exact h
  | setDisplayLines n =>
    refine ⟨_, rfl, ?_⟩
    have h := hasEffect_setter false false (linesOperand n) (fun v c => { c with displayLines := v }) functionSetOf s
    rw [linesOperand_elim] at h
    exact h
  | setDotMatrix n =>
    refine ⟨_, rfl, ?_⟩
    have h := hasEffect_setter false false (fontOperand n) (fun v c => { c with dotMatrix := v }) functionSetOf s
    rw [fontOperand_elim] at h
    exact h
  | setPosition r c =>
    refine ⟨_, rfl, ?_⟩
    unfold setPosition
    split
    · exact Effect.refl _ _ _
    · exact hasEffect_gate s (hasEffect_jumpTo _ _)
  | moveLeft =>
    refine ⟨_, rfl, hasEffect_gate s fun t => ?_⟩
    unfold moveLeftBody
    split
    · exact hasEffect_jumpTo _ _ t
    · exact hasEffect_commandThenCursor _ _ _ t
  | moveRight =>
    refine ⟨_, rfl, hasEffect_gate s fun t => ?_⟩
    unfold moveRightBody
    split
    · exact hasEffect_jumpTo _ _ t
    · exact hasEffect_commandThenCursor _ _ _ t
  | moveUp =>
    refine ⟨_, rfl, hasEffect_gate s fun t => ?_⟩
    unfold moveUpBody
    split
    · trivial
    · exact hasEffect_jumpTo _ _ t
  | moveDown =>
    refine ⟨_, rfl, hasEffect_gate s fun t => ?_⟩
    unfold moveDownBody
    split
    · trivial
    · exact hasEffect_jumpTo _ _ t
  | init => exact ⟨_, rfl, hasEffect_initSequence s⟩
  | clearLine r =>
    refine ⟨_, rfl, ?_⟩
    unfold clearLine
    split
    · exact Effect.refl _ _ _
    · exact hasEffect_gate s fun t => (hasEffect_jumpTo _ _ t).andThen (hasEffect_sendSpaces _ 40)
  | clearDisplay => exact ⟨_, rfl, (sendCommand_emitsOnly _ s).hasEffect⟩
  | returnHome => exact ⟨_, rfl, (sendCommand_emitsOnly _ s).hasEffect⟩
  | entryModeSet a b => exact ⟨_, rfl, (sendCommand_emitsOnly _ s).hasEffect⟩
  | displayControl a b c => exact ⟨_, rfl, (sendCommand_emitsOnly _ s).hasEffect⟩
  | cursorLeft => exact ⟨_, rfl, (sendCommand_emitsOnly _ s).hasEffect⟩
  | cursorRight => exact ⟨_, rfl, (sendCommand_emitsOnly _ s).hasEffect⟩
  | displayLeft => exact ⟨_, rfl, (sendCommand_emitsOnly _ s).hasEffect⟩
  | displayRight => exact ⟨_, rfl, (sendCommand_emitsOnly _ s).hasEffect⟩
  | functionSet a b c => exact ⟨_, rfl, (sendCommand_emitsOnly _ s).hasEffect⟩
  | setCgramAddr a => exact ⟨_, rfl, (sendCommand_emitsOnly _ s).hasEffect⟩
  | setDdramAddr a => exact ⟨_, rfl, (sendCommand_emitsOnly _ s).hasEffect⟩
  | dataByte v => exact ⟨_, rfl, hasEffect_sendData _ v s⟩

/-- If exec answers a next state, one of these holds. -/
theorem exec_cases {i : Instr} {s t : State} (h : exec i s = .next t) :
    (i ≠ .pinsInit ∧ (∀ n, i ≠ .setDataTransBits n) ∧ ∃ u r, t = u.report r ∧
      Effect (writesCursor i) (i == .init) (s.setSettings (storedSettings i s.settings)) u) ∨
    (i = .pinsInit ∧
      t = ((s.setBoundData (widthLines s.settings.dataTransBits)).forgetLevels.setPinsReady).report .ok) ∨
    (∃ n, i = .setDataTransBits n ∧
      ((n ≠ 4 ∧ n ≠ 8 ∧ t = s.report .invalidArgument) ∨
       ((n = 4 ∨ n = 8) ∧ t = (s.setSettings (storedSettings i s.settings)).clearReadiness.report .ok))) := by
  by_cases hp : i = .pinsInit
  · subst hp; cases h; exact .inr (.inl ⟨rfl, rfl⟩)
  by_cases hw : ∃ n, i = .setDataTransBits n
  · obtain ⟨n, rfl⟩ := hw
    refine .inr (.inr ⟨n, rfl, ?_⟩)
    by_cases h4 : n = 4
    · subst h4; cases h; exact .inr ⟨.inl rfl, rfl⟩
    by_cases h8 : n = 8
    · subst h8; cases h; exact .inr ⟨.inr rfl, rfl⟩
    simp only [exec, execSetDataTransBits, setDataTransBits, widthOperand, h4, h8, if_false] at h
    cases h
    exact .inl ⟨h4, h8, rfl⟩
  · have hw' : ∀ n, i ≠ .setDataTransBits n := fun n e => hw ⟨n, e⟩
    refine .inl ⟨hp, hw', ?_⟩
    obtain ⟨f, hf, he⟩ := exec_flow i s hp hw'
    rw [hf] at h
    cases f with
    | done u => cases h; exact ⟨u, _, rfl, he⟩
    | raised e u => cases h; exact ⟨u, _, rfl, he⟩
    | refused x => cases h

end Sys2Proof.Machine
end

