-- ==== Sys2Proof/Laws/Keeps.lean ====
section
/-! SUPPORT. Properties of states that every operation keeps: if a property is kept by one transfer, by RS, by a wait and
by a cursor move, every instruction keeps it (`Kept.exec`). With it, what a transfer does to the levels in any state. -/

namespace Sys2Proof.Machine

/-- A flow ends, done or stopped by an error, in a state with the property. -/
def Ends (Q : State → Prop) (f : Flow) : Prop :=
  match f with
  | .done t => Q t
  | .raised _ t => Q t
  | .refused _ => True

theorem Ends.andThen {Q : State → Prop} {f : Flow} {k : State → Flow} (h : Ends Q f)
    (hk : ∀ t, Q t → Ends Q (k t)) : Ends Q (f.andThen k) := by
  cases f with
  | done t => exact hk t h
  | raised e t => exact h
  | refused r => trivial

theorem ends_require {Q : State → Prop} {c : Bool} {e : ErrorKind} {s : State} (h : Q s) : Ends Q (require c e s) := by
  cases c <;> exact h

theorem Ends.complete {Q : State → Prop} {f : Flow} {t : State} (h : Ends Q f)
    (hr : ∀ s r, Q s → Q (s.report r)) (hf : f.complete = .next t) : Q t := by
  cases f with
  | done u => cases hf; exact hr _ _ h
  | raised e u => cases hf; exact hr _ _ h
  | refused r => cases hf

/-- What a property must be closed under to survive sending; with `rows`, it includes that the cursor is in V. -/
structure Kept (rows : Bool) (Q : State → Prop) : Prop where
  transfer : ∀ s v w, Q s → s.boundData.val = w → Q (s.emit (transfer v w))
  select : ∀ s b, Q s → Q (s.emit [.pin .rs b])
  wait : ∀ s us, Q s → Q (s.emit [.wait us])
  cursor : ∀ s c, Q s → (rows = true → inRows c = true) → Q (s.setCursor c)
  inRows : ∀ s, Q s → rows = true → inRows s.cursor = true

theorem ends_sendBits {Q : State → Prop} (hQ : ∀ s v w, Q s → s.boundData.val = w → Q (s.emit (transfer v w)))
    (v : Byte) (w : Nat) (s : State) (h : Q s) : Ends Q (sendBits v w s) := by
  refine (ends_require h).andThen fun t ht => ?_
  by_cases hb : t.boundData.val = w
  · simp only [hb, beq_self_eq_true, require_true, Flow.andThen_done]
    exact hQ t v w ht hb
  · simp only [beq_eq_false_iff_ne.mpr hb, require_false, Flow.andThen_raised]
    exact ht

theorem ends_sendByte {Q : State → Prop} (hQ : ∀ s v w, Q s → s.boundData.val = w → Q (s.emit (transfer v w)))
    (v : Byte) (s : State) (h : Q s) : Ends Q (sendByte v s) := by
  unfold sendByte
  split
  · exact (ends_sendBits hQ _ _ _ h).andThen fun _ ht => ends_sendBits hQ _ _ _ ht
  · exact ends_sendBits hQ _ _ _ h

/-! ## The address arithmetic stays in V (R161, R162) -/

theorem adv_inRows (c : Address) (h : inRows c = true) : inRows (adv c) = true := by
  have table : ∀ c : Address, inRows c = true →
      c.toNat < 0x27 ∨ c = 0x27 ∨ (0x40 ≤ c.toNat ∧ c.toNat < 0x67) ∨ c = 0x67 := by decide
  unfold adv
  rcases table c h with h1 | rfl | h1 | rfl
  · rw [if_pos h1]; simp only [inRows, BitVec.toNat_add, Bool.or_eq_true, decide_eq_true_eq]; left; simp; omega
  · decide
  · rw [if_neg (by omega), if_neg (by rintro rfl; simp at h1), if_pos h1]
    simp only [inRows, BitVec.toNat_add, Bool.or_eq_true, Bool.and_eq_true, decide_eq_true_eq]; right; simp; omega
  · decide

theorem ret_inRows (c : Address) (h : inRows c = true) : inRows (ret c) = true := by
  have table : ∀ c : Address, inRows c = true →
      c = 0x00 ∨ (0 < c.toNat ∧ c.toNat < 0x28) ∨ c = 0x40 ∨ (0x40 < c.toNat ∧ c.toNat < 0x68) := by decide
  unfold ret
  rcases table c h with rfl | h1 | rfl | h1
  · decide
  · rw [if_neg (by rintro rfl; simp at h1), if_pos h1.2]
    simp only [inRows, BitVec.toNat_sub, Bool.or_eq_true, decide_eq_true_eq]; left; simp; omega
  · decide
  · rw [if_neg (by rintro rfl; simp at h1), if_neg (by omega), if_neg (by rintro rfl; simp at h1), if_pos h1]
    simp only [inRows, BitVec.toNat_sub, Bool.or_eq_true, Bool.and_eq_true, decide_eq_true_eq]; right; simp; omega

theorem rowColumnAddress_inRows (row column : Byte) (hr : row.toNat ≤ 1) (hc : column.toNat ≤ 39) :
    inRows (rowColumnAddress row column) = true := by
  simp only [inRows, rowColumnAddress, BitVec.toNat_ofNat, Bool.or_eq_true, Bool.and_eq_true, decide_eq_true_eq]
  omega

theorem positionOperand_inRows {row column : Byte} {a : Address} (h : positionOperand row column = some a) :
    inRows a = true := by
  unfold positionOperand at h
  split at h
  next hc => cases h; exact rowColumnAddress_inRows _ _ hc.1 hc.2
  next => cases h

theorem rowOperand_inRows {row : Byte} {a : Address} (h : rowOperand row = some a) : inRows a = true := by
  unfold rowOperand at h
  split at h
  next hc => cases h; exact rowColumnAddress_inRows _ _ hc (by decide)
  next => cases h

/-! ## Every operation -/

section
variable {rows : Bool} {Q : State → Prop}

theorem Kept.sendCommand (k : Kept rows Q) (v : Byte) (s : State) (h : Q s) : Ends Q (sendCommand v s) :=
  (ends_require h).andThen fun _ ht => ends_sendByte k.transfer _ _ (k.select _ _ ht)

theorem Kept.sendData (k : Kept rows Q) (v : Byte) (s : State) (h : Q s) : Ends Q (sendData v s) :=
  (ends_require h).andThen fun _ ht => (ends_sendByte k.transfer _ _ (k.select _ _ ht)).andThen fun _ hu =>
    k.cursor _ _ hu fun e => adv_inRows _ (k.inRows _ hu e)

theorem Kept.sendCommandAndWait (k : Kept rows Q) (v : Byte) (us : Nat) (s : State) (h : Q s) :
    Ends Q (sendCommandAndWait v us s) :=
  (k.sendCommand v s h).andThen fun _ ht => k.wait _ _ ht

theorem Kept.commandThenCursor (k : Kept rows Q) (v : Byte) (n : Address) (s : State) (h : Q s)
    (hn : rows = true → Machine.inRows n = true) : Ends Q (commandThenCursor v n s) :=
  (k.sendCommandAndWait v _ s h).andThen fun _ ht => k.cursor _ _ ht hn

theorem Kept.clearBody (k : Kept rows Q) (s : State) (h : Q s) : Ends Q (clearBody s) :=
  (k.sendCommandAndWait _ _ s h).andThen fun _ ht => k.cursor _ _ ht fun _ => rfl

theorem Kept.homeBody (k : Kept rows Q) (s : State) (h : Q s) : Ends Q (homeBody s) :=
  (k.sendCommandAndWait _ _ s h).andThen fun _ ht => k.cursor _ _ ht fun _ => rfl

theorem Kept.sendSpaces (k : Kept rows Q) (n : Nat) (s : State) (h : Q s) : Ends Q (sendSpaces n s) := by
  induction n generalizing s with
  | zero => exact h
  | succ n ih => exact (k.sendData _ _ h).andThen ih

theorem ends_gate {body : State → Flow} (s : State) (h : Q s) (hb : ∀ t, Q t → Ends Q (body t)) :
    Ends Q ((requireWriteReady s).andThen body) := (ends_require h).andThen hb

theorem Kept.setter (k : Kept rows Q) (hset : ∀ s c, Q s → Q (s.setSettings c)) {α : Type} (operand : Option α)
    (store : α → Settings → Settings) (command : Settings → Byte) (s : State) (h : Q s) :
    Ends Q (setter operand store command s) := by
  cases operand with
  | none => exact h
  | some v => exact (ends_require (hset _ _ h)).andThen fun _ ht => k.sendCommandAndWait _ _ _ ht

theorem Kept.setPosition (k : Kept rows Q) (row column : Byte) (s : State) (h : Q s) :
    Ends Q (setPosition row column s) := by
  unfold Machine.setPosition
  split
  · exact h
  next a ha => exact ends_gate s h fun _ ht => k.commandThenCursor _ _ _ ht fun _ => positionOperand_inRows ha

theorem Kept.clearLine (k : Kept rows Q) (row : Byte) (s : State) (h : Q s) : Ends Q (clearLine row s) := by
  unfold Machine.clearLine
  split
  · exact h
  next a ha =>
    exact ends_gate s h fun _ ht => (k.commandThenCursor _ _ _ ht fun _ => rowOperand_inRows ha).andThen
      (k.sendSpaces 40)

theorem Kept.moveLeftBody (k : Kept rows Q) (s : State) (h : Q s) : Ends Q (moveLeftBody s) := by
  unfold Machine.moveLeftBody
  split <;> exact k.commandThenCursor _ _ _ h fun e => ret_inRows _ (k.inRows _ h e)

theorem Kept.moveRightBody (k : Kept rows Q) (s : State) (h : Q s) : Ends Q (moveRightBody s) := by
  unfold Machine.moveRightBody
  split <;> exact k.commandThenCursor _ _ _ h fun e => adv_inRows _ (k.inRows _ h e)

theorem Kept.moveUpBody (k : Kept rows Q) (s : State) (h : Q s) : Ends Q (moveUpBody s) := by
  have up : ∀ c : Address, ¬c.toNat < 0x40 → Machine.inRows c = true → Machine.inRows (c - 0x40) = true := by decide
  unfold Machine.moveUpBody
  split
  · trivial
  next hc => exact k.commandThenCursor _ _ _ h fun e => up _ hc (k.inRows _ h e)

theorem Kept.moveDownBody (k : Kept rows Q) (s : State) (h : Q s) : Ends Q (moveDownBody s) := by
  have down : ∀ c : Address, ¬0x40 ≤ c.toNat → Machine.inRows c = true → Machine.inRows (c + 0x40) = true := by decide
  unfold Machine.moveDownBody
  split
  · trivial
  next hc => exact k.commandThenCursor _ _ _ h fun e => down _ hc (k.inRows _ h e)

theorem Kept.initSequence (k : Kept rows Q) (hready : ∀ s, Q s → Q s.setWriteReady) (s : State) (h : Q s) :
    Ends Q (initSequence s) :=
  (k.sendCommandAndWait _ _ _ (k.wait _ _ h)).andThen fun _ h => (k.sendCommandAndWait _ _ _ h).andThen fun _ h =>
    (k.sendCommandAndWait _ _ _ h).andThen fun _ h => (k.sendCommandAndWait _ _ _ h).andThen fun _ h =>
    (k.clearBody _ h).andThen fun _ h => (k.homeBody _ h).andThen fun _ h =>
    (k.sendCommandAndWait _ _ _ h).andThen fun _ h => (k.sendCommandAndWait _ _ _ h).andThen fun _ h => hready _ h

/-- Every instruction other than PINS_INIT keeps a property that sending keeps and that does not depend on the settings,
the flags or the results. -/
theorem Kept.exec (k : Kept rows Q) (hset : ∀ s c, Q s → Q (s.setSettings c)) (hready : ∀ s, Q s → Q s.setWriteReady)
    (hclear : ∀ s, Q s → Q s.clearReadiness) (hr : ∀ s r, Q s → Q (s.report r)) {i : Instr} {s t : State}
    (hp : i ≠ .pinsInit) (h : Q s) (he : exec i s = .next t) : Q t := by
  cases i with
  | pinsInit => exact absurd rfl hp
  | sendBits v w => exact (ends_sendBits k.transfer v w.toNat s h).complete hr he
  | sendByte v => exact (ends_sendByte k.transfer v s h).complete hr he
  | sendCommand v => exact (k.sendCommand v s h).complete hr he
  | sendData v => exact (k.sendData v s h).complete hr he
  | clear => exact (ends_gate s h k.clearBody).complete hr he
  | home => exact (ends_gate s h k.homeBody).complete hr he
  | setAcAutoIncrease f => exact (k.setter hset _ _ _ s h).complete hr he
  | setDisplayFollowCursor f => exact (k.setter hset _ _ _ s h).complete hr he
  | setDisplayOn f => exact (k.setter hset _ _ _ s h).complete hr he
  | setCursorVisible f => exact (k.setter hset _ _ _ s h).complete hr he
  | setCursorBlink f => exact (k.setter hset _ _ _ s h).complete hr he
  | setDataTransBits n =>
    refine Ends.complete (f := setDataTransBits n s) ?_ hr he
    unfold setDataTransBits
    split
    · exact h
    · exact hclear _ (hset _ _ h)
  | setDisplayLines n => exact (k.setter hset _ _ _ s h).complete hr he
  | setDotMatrix n => exact (k.setter hset _ _ _ s h).complete hr he
  | setPosition r c => exact (k.setPosition r c s h).complete hr he
  | moveLeft => exact (ends_gate s h k.moveLeftBody).complete hr he
  | moveRight => exact (ends_gate s h k.moveRightBody).complete hr he
  | moveUp => exact (ends_gate s h k.moveUpBody).complete hr he
  | moveDown => exact (ends_gate s h k.moveDownBody).complete hr he
  | init => exact (k.initSequence hready s h).complete hr he
  | clearLine r => exact (k.clearLine r s h).complete hr he
  | clearDisplay => exact (k.sendCommand _ s h).complete hr he
  | returnHome => exact (k.sendCommand _ s h).complete hr he
  | entryModeSet a b => exact (k.sendCommand _ s h).complete hr he
  | displayControl a b c => exact (k.sendCommand _ s h).complete hr he
  | cursorLeft => exact (k.sendCommand _ s h).complete hr he
  | cursorRight => exact (k.sendCommand _ s h).complete hr he
  | displayLeft => exact (k.sendCommand _ s h).complete hr he
  | displayRight => exact (k.sendCommand _ s h).complete hr he
  | functionSet a b c => exact (k.sendCommand _ s h).complete hr he
  | setCgramAddr a => exact (k.sendCommand _ s h).complete hr he
  | setDdramAddr a => exact (k.sendCommand _ s h).complete hr he
  | dataByte v => exact (k.sendData v s h).complete hr he

end

/-! ## A transfer and the levels, for any number of bound lines -/

theorem line_is_dataLine (w i : Nat) : ∃ k, line w i = dataLine k := by
  unfold line
  split
  · exact ⟨_, rfl⟩
  · split <;> exact ⟨_, rfl⟩

theorem drive_dataPins (v : Byte) (w : Nat) (l : PinLevels) :
    ((dataPins v w).foldl PinLevels.drive l).rs = l.rs ∧ ((dataPins v w).foldl PinLevels.drive l).rw = l.rw ∧
      ((dataPins v w).foldl PinLevels.drive l).e = l.e := by
  have data (k : Fin 8) (m : PinLevels) (b : Bool) : (m.drive (.pin (dataLine k) b)).rs = m.rs ∧
      (m.drive (.pin (dataLine k) b)).rw = m.rw ∧ (m.drive (.pin (dataLine k) b)).e = m.e := by
    fin_cases k <;> exact ⟨rfl, rfl, rfl⟩
  unfold dataPins
  induction List.range w generalizing l with
  | nil => exact ⟨rfl, rfl, rfl⟩
  | cons i is ih =>
    obtain ⟨k, hk⟩ := line_is_dataLine w i
    obtain ⟨a, b, c⟩ := data k l (v.getLsbD i)
    obtain ⟨a', b', c'⟩ := ih (l.drive (.pin (line w i) (v.getLsbD i)))
    simp only [List.map_cons, List.foldl_cons]
    rw [a', b', c', hk]
    exact ⟨a, b, c⟩

/-- R110, R111: a transfer leaves RS alone and RW and E low. -/
theorem drive_transfer (v : Byte) (w : Nat) (l : PinLevels) :
    ((transfer v w).foldl PinLevels.drive l).rs = l.rs ∧ ((transfer v w).foldl PinLevels.drive l).rw = .low ∧
      ((transfer v w).foldl PinLevels.drive l).e = .low := by
  obtain ⟨a, b, -⟩ := drive_dataPins v w (l.drive (.pin .rw false))
  simp only [transfer, List.foldl_cons, List.foldl_append]
  exact ⟨a, b, rfl⟩

/-- Only SET_DATA_TRANS_BITS stores a width. -/
theorem storedSettings_width (i : Instr) (c : Settings) (h : ∀ n, i ≠ .setDataTransBits n) :
    (storedSettings i c).dataTransBits = c.dataTransBits := by
  cases i <;> first
    | rfl
    | exact absurd rfl (h _)
    | (simp only [storedSettings]; split <;> first | rfl | (split <;> rfl))

end Sys2Proof.Machine
end

