-- ==== Sys2Proof/Laws/Line.lean ====
section
/-! SUPPORT. Runs of data writes: the spaces of CLEAR_LINE (R190), the text of PRINT_LINE (R191), and what each becomes
on a ready block. -/

namespace Sys2Proof.Machine

/-- A data byte leaves the levels another one of the same value left. -/
theorem dataLevels_twice (w : TransferWidth) (v : Byte) (l : PinLevels) :
    ({ levelsAfterByte w v { levelsAfterByte w v l with rs := .high } with rs := .high } : PinLevels) =
      { levelsAfterByte w v l with rs := .high } := by
  cases w <;> rfl

/-- One or more spaces on a ready block. -/
theorem sendSpaces_ready (n : Nat) (s : State) (h : RawReady s) : sendSpaces (n + 1) s = .done { s with
    trace := s.trace ++ (List.replicate (n + 1) (dataOnBus s.settings.dataTransBits 0x20)).flatten
    level := (s.afterData 0x20).level
    cursor := Nat.iterate adv (n + 1) s.cursor } := by
  induction n generalizing s with
  | zero => simp [sendSpaces, sendData_ready _ _ h, State.afterData, State.setCursor, spaceCode]
  | succ n ih =>
    rw [sendSpaces, sendData_ready _ _ h, Flow.andThen_done, ih ((s.afterData spaceCode).setCursor _) h]
    simp only [State.setCursor, State.afterData, spaceCode]
    congr 2
    · exact dataLevels_twice _ _ _
    · simp [List.replicate_succ]

theorem clearLine_bad_row (s : State) (row : Byte) (h : rowOperand row = none) :
    clearLine row s = .raised .invalidArgument s := by
  unfold clearLine
  rw [h]
  rfl

theorem clearLine_not_ready (s : State) (row : Byte) (a : Address) (h : rowOperand row = some a)
    (hw : s.writeReady = false) : clearLine row s = .raised .invalidState s := by
  unfold clearLine
  rw [h]
  exact gate_not_ready s _ hw

theorem clearLine_ready (s : State) (row : Byte) (a : Address) (h : rowOperand row = some a) (hs : CookedReady s) :
    clearLine row s = sendSpaces 40 (((s.afterCommand (ddramByte a)).afterWait tCmdUs).setCursor a) := by
  unfold clearLine
  rw [h]
  show (requireWriteReady s).andThen _ = _
  rw [gate_ready s _ hs.1, jumpTo_ready s a hs.2, Flow.andThen_done]

/-- A run of SEND_DATA on a ready block: every one returns OK. -/
theorem runText_ready (text : List Byte) (s : State) (h : RawReady s) :
    ∃ l : PinLevels, runWhileOk (text.map .sendData) s = .next { s with
      trace := s.trace ++ (text.map (dataOnBus s.settings.dataTransBits)).flatten
      level := l
      cursor := Nat.iterate adv text.length s.cursor
      results := s.results ++ List.replicate text.length .ok } := by
  induction text generalizing s with
  | nil => exact ⟨s.level, by simp [runWhileOk]⟩
  | cons v text ih =>
    have first : exec (.sendData v) s = .next (((s.afterData v).setCursor (adv s.cursor)).report .ok) := by
      simp only [exec, execSendData, sendData_ready _ _ h, Flow.complete_done]
    obtain ⟨l, hl⟩ := ih (((s.afterData v).setCursor (adv s.cursor)).report .ok) h
    refine ⟨l, ?_⟩
    simp only [List.map_cons, runWhileOk, first]
    rw [if_pos (by simp), hl]
    simp [State.report, State.setCursor, State.afterData, List.replicate_succ]

end Sys2Proof.Machine
end

