-- ==== Sys2Proof/Laws/PerInstr.lean ====
section
/-! SUPPORT. The family EncodesItsRow: the encoder agrees with the mask and match of the opcode table
(spec/opcode_table.json), row by row, and no two rows of one format overlap. -/

namespace Sys2Proof.Laws

/-- The formats of the opcode table. -/
inductive Format where
  | host
  | wire
  | wireData
  deriving DecidableEq, Repr

/-- A row of the opcode table: a word belongs to it when its bits under the mask are the match. -/
structure Row where
  mnemonic : String
  format : Format
  mask : Nat
  fixed : Nat
  deriving DecidableEq, Repr

/-- The first half of the HOST rows. -/
def hostRowsA : List Row :=
  [⟨"SEND_BITS", .host, 0x1F0000, 0x000000⟩,
   ⟨"SEND_BYTE", .host, 0x1F0000, 0x010000⟩,
   ⟨"SEND_COMMAND", .host, 0x1F0000, 0x020000⟩,
   ⟨"SEND_DATA", .host, 0x1F0000, 0x030000⟩,
   ⟨"CLEAR", .host, 0x1F0000, 0x040000⟩,
   ⟨"HOME", .host, 0x1F0000, 0x050000⟩,
   ⟨"SET_AC_AUTO_INCREASE", .host, 0x1F0000, 0x060000⟩,
   ⟨"SET_DISPLAY_FOLLOW_CURSOR", .host, 0x1F0000, 0x070000⟩,
   ⟨"SET_DISPLAY_ON", .host, 0x1F0000, 0x080000⟩,
   ⟨"SET_CURSOR_VISIBLE", .host, 0x1F0000, 0x090000⟩,
   ⟨"SET_CURSOR_BLINK", .host, 0x1F0000, 0x0A0000⟩]

/-- The second half of the HOST rows. -/
def hostRowsB : List Row :=
  [⟨"SET_DATA_TRANS_BITS", .host, 0x1F0000, 0x0B0000⟩,
   ⟨"SET_DISPLAY_LINES", .host, 0x1F0000, 0x0C0000⟩,
   ⟨"SET_DOT_MATRIX", .host, 0x1F0000, 0x0D0000⟩,
   ⟨"SET_POSITION", .host, 0x1F0000, 0x0E0000⟩,
   ⟨"MOVE_LEFT", .host, 0x1F0000, 0x0F0000⟩,
   ⟨"MOVE_RIGHT", .host, 0x1F0000, 0x100000⟩,
   ⟨"MOVE_UP", .host, 0x1F0000, 0x110000⟩,
   ⟨"MOVE_DOWN", .host, 0x1F0000, 0x120000⟩,
   ⟨"PINS_INIT", .host, 0x1F0000, 0x130000⟩,
   ⟨"INIT", .host, 0x1F0000, 0x140000⟩,
   ⟨"CLEAR_LINE", .host, 0x1F0000, 0x150000⟩]

/-- The WIRE rows and the WIRE_DATA row. -/
def wireRows : List Row :=
  [⟨"CLEAR_DISPLAY", .wire, 0xFF, 0x01⟩,
   ⟨"RETURN_HOME", .wire, 0xFF, 0x02⟩,
   ⟨"ENTRY_MODE_SET", .wire, 0xFC, 0x04⟩,
   ⟨"DISPLAY_CONTROL", .wire, 0xF8, 0x08⟩,
   ⟨"CURSOR_LEFT", .wire, 0xFF, 0x10⟩,
   ⟨"CURSOR_RIGHT", .wire, 0xFF, 0x14⟩,
   ⟨"DISPLAY_LEFT", .wire, 0xFF, 0x18⟩,
   ⟨"DISPLAY_RIGHT", .wire, 0xFF, 0x1C⟩,
   ⟨"FUNCTION_SET", .wire, 0xE3, 0x20⟩,
   ⟨"SET_CGRAM_ADDR", .wire, 0xC0, 0x40⟩,
   ⟨"SET_DDRAM_ADDR", .wire, 0x80, 0x80⟩,
   ⟨"DATA_BYTE", .wireData, 0x00, 0x00⟩]

/-- The 34 rows, in the table's order. -/
def opcodeTable : List Row := hostRowsA ++ hostRowsB ++ wireRows

/-- A request is a word of a row. -/
def Row.covers (r : Row) : Request → Prop
  | .host w => r.format = .host ∧ w.toNat &&& r.mask = r.fixed
  | .wireCommand b => r.format = .wire ∧ b.toNat &&& r.mask = r.fixed
  | .wireData b => r.format = .wireData ∧ b.toNat &&& r.mask = r.fixed

/-- No word belongs to two rows of one format: where their masks meet, their matches differ. -/
theorem rows_disjoint : opcodeTable.Pairwise fun r q =>
    r.format = q.format → r.fixed &&& (r.mask &&& q.mask) ≠ q.fixed &&& (r.mask &&& q.mask) := by
  decide +kernel

/-- The operation field of a request word, under the table's mask. -/
theorem hostWord_masked (op : BitVec 5) (a b : Byte) :
    (hostWord op a b).toNat &&& 0x1F0000 = (op.setWidth 21 <<< 16).toNat := by
  have h : hostWord op a b &&& 0x1F0000#21 = op.setWidth 21 <<< 16 := by
    apply BitVec.eq_of_getLsbD_eq
    intro i hi
    have table : ∀ i : Fin 21, (0x1F0000#21).getLsbD i.val = decide (16 ≤ i.val) := by decide
    have bit := table ⟨i, hi⟩
    simp only at bit
    simp only [hostWord, BitVec.getLsbD_and, BitVec.getLsbD_or, BitVec.getLsbD_shiftLeft, BitVec.getLsbD_setWidth, bit]
    by_cases h16 : 16 ≤ i
    · simp [h16, hi, show ¬i < 16 by omega, BitVec.getLsbD_of_ge a (i - 8) (by omega),
        BitVec.getLsbD_of_ge b i (by omega)]
    · simp [h16, show i < 16 by omega]
  rw [← h]
  rfl

namespace EncodesItsRow

/-- The encoding of an instruction is a word of the row its mnemonic names. -/
def Statement (i : Instr) : Prop := ∃ r ∈ opcodeTable, r.mnemonic = mnemonic i ∧ r.covers (encode i)

theorem sendBits (a b : Byte) : Statement (.sendBits a b) :=
  ⟨⟨"SEND_BITS", .host, 0x1F0000, 0x000000⟩, by decide, rfl, rfl, hostWord_masked 0x00 a b⟩

theorem sendByte (a : Byte) : Statement (.sendByte a) :=
  ⟨⟨"SEND_BYTE", .host, 0x1F0000, 0x010000⟩, by decide, rfl, rfl, hostWord_masked 0x01 a 0⟩

theorem sendCommand (a : Byte) : Statement (.sendCommand a) :=
  ⟨⟨"SEND_COMMAND", .host, 0x1F0000, 0x020000⟩, by decide, rfl, rfl, hostWord_masked 0x02 a 0⟩

theorem sendData (a : Byte) : Statement (.sendData a) :=
  ⟨⟨"SEND_DATA", .host, 0x1F0000, 0x030000⟩, by decide, rfl, rfl, hostWord_masked 0x03 a 0⟩

theorem clear : Statement .clear :=
  ⟨⟨"CLEAR", .host, 0x1F0000, 0x040000⟩, by decide, rfl, rfl, hostWord_masked 0x04 0 0⟩

theorem home : Statement .home :=
  ⟨⟨"HOME", .host, 0x1F0000, 0x050000⟩, by decide, rfl, rfl, hostWord_masked 0x05 0 0⟩

theorem setAcAutoIncrease (a : Byte) : Statement (.setAcAutoIncrease a) :=
  ⟨⟨"SET_AC_AUTO_INCREASE", .host, 0x1F0000, 0x060000⟩, by decide, rfl, rfl, hostWord_masked 0x06 a 0⟩

theorem setDisplayFollowCursor (a : Byte) : Statement (.setDisplayFollowCursor a) :=
  ⟨⟨"SET_DISPLAY_FOLLOW_CURSOR", .host, 0x1F0000, 0x070000⟩, by decide, rfl, rfl, hostWord_masked 0x07 a 0⟩

theorem setDisplayOn (a : Byte) : Statement (.setDisplayOn a) :=
  ⟨⟨"SET_DISPLAY_ON", .host, 0x1F0000, 0x080000⟩, by decide, rfl, rfl, hostWord_masked 0x08 a 0⟩

theorem setCursorVisible (a : Byte) : Statement (.setCursorVisible a) :=
  ⟨⟨"SET_CURSOR_VISIBLE", .host, 0x1F0000, 0x090000⟩, by decide, rfl, rfl, hostWord_masked 0x09 a 0⟩

theorem setCursorBlink (a : Byte) : Statement (.setCursorBlink a) :=
  ⟨⟨"SET_CURSOR_BLINK", .host, 0x1F0000, 0x0A0000⟩, by decide, rfl, rfl, hostWord_masked 0x0a a 0⟩

theorem setDataTransBits (a : Byte) : Statement (.setDataTransBits a) :=
  ⟨⟨"SET_DATA_TRANS_BITS", .host, 0x1F0000, 0x0B0000⟩, by decide, rfl, rfl, hostWord_masked 0x0b a 0⟩

theorem setDisplayLines (a : Byte) : Statement (.setDisplayLines a) :=
  ⟨⟨"SET_DISPLAY_LINES", .host, 0x1F0000, 0x0C0000⟩, by decide, rfl, rfl, hostWord_masked 0x0c a 0⟩

theorem setDotMatrix (a : Byte) : Statement (.setDotMatrix a) :=
  ⟨⟨"SET_DOT_MATRIX", .host, 0x1F0000, 0x0D0000⟩, by decide, rfl, rfl, hostWord_masked 0x0d a 0⟩

theorem setPosition (a b : Byte) : Statement (.setPosition a b) :=
  ⟨⟨"SET_POSITION", .host, 0x1F0000, 0x0E0000⟩, by decide, rfl, rfl, hostWord_masked 0x0e a b⟩

theorem moveLeft : Statement .moveLeft :=
  ⟨⟨"MOVE_LEFT", .host, 0x1F0000, 0x0F0000⟩, by decide, rfl, rfl, hostWord_masked 0x0f 0 0⟩

theorem moveRight : Statement .moveRight :=
  ⟨⟨"MOVE_RIGHT", .host, 0x1F0000, 0x100000⟩, by decide, rfl, rfl, hostWord_masked 0x10 0 0⟩

theorem moveUp : Statement .moveUp :=
  ⟨⟨"MOVE_UP", .host, 0x1F0000, 0x110000⟩, by decide, rfl, rfl, hostWord_masked 0x11 0 0⟩

theorem moveDown : Statement .moveDown :=
  ⟨⟨"MOVE_DOWN", .host, 0x1F0000, 0x120000⟩, by decide, rfl, rfl, hostWord_masked 0x12 0 0⟩

theorem pinsInit : Statement .pinsInit :=
  ⟨⟨"PINS_INIT", .host, 0x1F0000, 0x130000⟩, by decide, rfl, rfl, hostWord_masked 0x13 0 0⟩

theorem init : Statement .init :=
  ⟨⟨"INIT", .host, 0x1F0000, 0x140000⟩, by decide, rfl, rfl, hostWord_masked 0x14 0 0⟩

theorem clearLine (a : Byte) : Statement (.clearLine a) :=
  ⟨⟨"CLEAR_LINE", .host, 0x1F0000, 0x150000⟩, by decide, rfl, rfl, hostWord_masked 0x15 a 0⟩

theorem clearDisplay : Statement .clearDisplay :=
  ⟨⟨"CLEAR_DISPLAY", .wire, 0xFF, 0x01⟩, by decide, rfl, rfl, rfl⟩

theorem returnHome : Statement .returnHome :=
  ⟨⟨"RETURN_HOME", .wire, 0xFF, 0x02⟩, by decide, rfl, rfl, rfl⟩

theorem entryModeSet (i s : Bool) : Statement (.entryModeSet i s) :=
  ⟨⟨"ENTRY_MODE_SET", .wire, 0xFC, 0x04⟩, by decide, rfl, rfl, by revert i s; decide⟩

theorem displayControl (d c b : Bool) : Statement (.displayControl d c b) :=
  ⟨⟨"DISPLAY_CONTROL", .wire, 0xF8, 0x08⟩, by decide, rfl, rfl, by revert d c b; decide⟩

theorem cursorLeft : Statement .cursorLeft :=
  ⟨⟨"CURSOR_LEFT", .wire, 0xFF, 0x10⟩, by decide, rfl, rfl, rfl⟩

theorem cursorRight : Statement .cursorRight :=
  ⟨⟨"CURSOR_RIGHT", .wire, 0xFF, 0x14⟩, by decide, rfl, rfl, rfl⟩

theorem displayLeft : Statement .displayLeft :=
  ⟨⟨"DISPLAY_LEFT", .wire, 0xFF, 0x18⟩, by decide, rfl, rfl, rfl⟩

theorem displayRight : Statement .displayRight :=
  ⟨⟨"DISPLAY_RIGHT", .wire, 0xFF, 0x1C⟩, by decide, rfl, rfl, rfl⟩

theorem functionSet (l n f : Bool) : Statement (.functionSet l n f) :=
  ⟨⟨"FUNCTION_SET", .wire, 0xE3, 0x20⟩, by decide, rfl, rfl, by revert l n f; decide⟩

theorem setCgramAddr (a : BitVec 6) : Statement (.setCgramAddr a) :=
  ⟨⟨"SET_CGRAM_ADDR", .wire, 0xC0, 0x40⟩, by decide, rfl, rfl, by revert a; decide⟩

theorem setDdramAddr (a : Address) : Statement (.setDdramAddr a) :=
  ⟨⟨"SET_DDRAM_ADDR", .wire, 0x80, 0x80⟩, by decide, rfl, rfl, by revert a; decide⟩

theorem dataByte (v : Byte) : Statement (.dataByte v) :=
  ⟨⟨"DATA_BYTE", .wireData, 0x00, 0x00⟩, by decide, rfl, rfl, Nat.and_zero _⟩

end EncodesItsRow

end Sys2Proof.Laws
end

