-- ==== Sys2Proof/Laws/Receiver.lean ====
section
/-! SUPPORT. What the receiver of Safety.lean takes from a byte on the bus, in both modes. -/

namespace Sys2Proof.Machine

theorem latched_append (u : BusView) (a b : List Event) :
    latched u (a ++ b) = latched u a ++ latched (a.foldl BusView.see u) b := by
  induction a generalizing u with
  | nil => rfl
  | cons e a ih =>
    by_cases h : e = .pin .e false
    · subst h
      simp only [List.cons_append, latched, List.foldl_cons, BusView.see, ih]
    · rw [List.cons_append, latched, latched, ih, List.foldl_cons] <;> intro a <;> exact h a

theorem withBit_getElem (d : Byte) (k : Nat) (b : Bool) (i : Nat) (hi : i < 8) :
    (withBit d k b)[i] = if i = k then b else d[i] := by
  cases b <;> simp [withBit] <;> by_cases h : i = k <;> simp_all <;> omega

/-- Eight lines hold the byte. -/
theorem eightLines (v d : Byte) :
    withBit (withBit (withBit (withBit (withBit (withBit (withBit (withBit d 0 (v.getLsbD 0)) 1 (v.getLsbD 1)) 2
      (v.getLsbD 2)) 3 (v.getLsbD 3)) 4 (v.getLsbD 4)) 5 (v.getLsbD 5)) 6 (v.getLsbD 6)) 7 (v.getLsbD 7) = v := by
  apply BitVec.eq_of_getElem_eq
  intro i hi
  simp only [withBit_getElem]
  have : i = 0 ∨ i = 1 ∨ i = 2 ∨ i = 3 ∨ i = 4 ∨ i = 5 ∨ i = 6 ∨ i = 7 := by omega
  rcases this with rfl | rfl | rfl | rfl | rfl | rfl | rfl | rfl <;> simp

/-- `D7..D4` with bits `k+3..k` of a byte on them. -/
def onUpperLines (v : Byte) (k : Nat) (d : Byte) : Byte :=
  withBit (withBit (withBit (withBit d 4 (v.getLsbD k)) 5 (v.getLsbD (k + 1))) 6 (v.getLsbD (k + 2))) 7
    (v.getLsbD (k + 3))

/-- Two nibbles make the byte. -/
theorem twoNibbles (v d : Byte) :
    (onUpperLines v 4 d &&& 0xF0) ||| (onUpperLines v 0 (onUpperLines v 4 d) >>> 4) = v := by
  apply BitVec.eq_of_getElem_eq
  intro i hi
  have : i = 0 ∨ i = 1 ∨ i = 2 ∨ i = 3 ∨ i = 4 ∨ i = 5 ∨ i = 6 ∨ i = 7 := by omega
  rcases this with rfl | rfl | rfl | rfl | rfl | rfl | rfl | rfl
  all_goals
    simp only [onUpperLines, ← BitVec.getLsbD_eq_getElem]
    simp [BitVec.getLsbD_eq_getElem, withBit_getElem]

/-- R84: the receiver takes one byte, with its RS, from a byte on the bus. -/
theorem received_byte (w : TransferWidth) (u : BusView) (b : Bool) (v : Byte) (rest : List Event) :
    ∃ u', received w u ((.pin .rs b :: byteOnBus w v) ++ rest) = (b, v) :: received w u' rest := by
  refine ⟨(Event.pin .rs b :: byteOnBus w v).foldl BusView.see u, ?_⟩
  cases w with
  | eight =>
    simp only [received, latched_append, List.map_append]
    simp [byteOnBus, byteOnEight, pulse, latched, BusView.see, -BitVec.getLsbD_eq_getElem, eightLines]
  | four =>
    have h := twoNibbles v u.data
    simp only [received, latched_append]
    simp only [onUpperLines, Nat.reduceAdd] at h
    simpa [byteOnBus, byteOnFour, lowNibbleOnFour, pulse, latched, BusView.see, pairNibbles,
      -BitVec.getLsbD_eq_getElem] using h

theorem received_wait (w : TransferWidth) (u : BusView) (us : Nat) (rest : List Event) :
    received w u ([.wait us] ++ rest) = received w u rest := by
  cases w <;> rfl

theorem received_nil (w : TransferWidth) (u : BusView) : received w u [] = [] := by
  cases w <;> rfl

end Sys2Proof.Machine
end

