-- ==== Sys2Proof/Tests/Slice0.lean ====
section
/-! SUPPORT. Tests, with expected values from spec/95_test_vectors.md (named V-…, S4, P4), spec/30_encoding.md (R75 to
R88) and spec/opcode_table.json; then a witness for the hypotheses of each obligation. -/

namespace Sys2Proof.Tests

open Sys2Proof.Machine

/-! ## The states and the traces of 95_test_vectors.md -/

/-- `std8` and `std4`. -/
def std (w : TransferWidth) : State :=
  { State.resetWith { acAutoIncrease := true, displayFollowCursor := false, displayOn := true, cursorVisible := false,
                      cursorBlink := false, dataTransBits := w, displayLines := .two, dotMatrix := .f5x7 } with
    pinsReady := true
    writeReady := true
    boundData := match w with | .four => 4 | .eight => 8 }

/-- `std8` or `std4` with the cursor at an address. -/
def at_ (w : TransferWidth) (c : Address) : State := { std w with cursor := c }

/-- With `write_ready` false. -/
def raw (w : TransferWidth) : State := { std w with writeReady := false }

/-- With `pins_ready` and `write_ready` false. -/
def cold (w : TransferWidth) : State := { raw w with pinsReady := false }

/-- The trace, the cursor and the last result of an answer. -/
def seen : Answer → Option (List Event × Address × Option Result)
  | .next t => some (t.trace, t.cursor, t.results.getLast?)
  | .fault _ => none
  | .refused _ => none

/-- One transfer, with its levels listed `D0` (or `D4`) first. -/
def wires (lines : List Signal) (bits : List Nat) : List Event :=
  .pin .rw false :: (lines.zip bits).map (fun p => .pin p.1 (p.2 == 1)) ++
    [.pin .e true, .wait 1, .pin .e false, .wait 100]

def wires8 (bits : List Nat) : List Event := wires [.d0, .d1, .d2, .d3, .d4, .d5, .d6, .d7] bits

def wires4 (bits : List Nat) : List Event := wires [.d4, .d5, .d6, .d7] bits

def rs (b : Bool) : Event := .pin .rs b

/-! ## Decoding: words written out from R71, R88 and the opcode table -/

theorem test_decode_raw_rows :
    decodeTableWord 24 0x00A508 = some (.sendBits 0xA5 8) ∧
    decodeTableWord 24 0x012800 = some (.sendByte 0x28) ∧
    decodeTableWord 24 0x02C500 = some (.sendCommand 0xC5) ∧
    decodeTableWord 24 0x034800 = some (.sendData 0x48) := by decide

theorem test_decode_setter_rows :
    decodeTableWord 24 0x060100 = some (.setAcAutoIncrease 1) ∧
    decodeTableWord 24 0x070100 = some (.setDisplayFollowCursor 1) ∧
    decodeTableWord 24 0x080100 = some (.setDisplayOn 1) ∧
    decodeTableWord 24 0x090200 = some (.setCursorVisible 2) ∧
    decodeTableWord 24 0x0A0100 = some (.setCursorBlink 1) ∧
    decodeTableWord 24 0x0B0800 = some (.setDataTransBits 8) ∧
    decodeTableWord 24 0x0C0200 = some (.setDisplayLines 2) ∧
    decodeTableWord 24 0x0D0100 = some (.setDotMatrix 1) := by decide

theorem test_decode_command_and_cursor_rows :
    decodeTableWord 24 0x040000 = some .clear ∧
    decodeTableWord 24 0x050000 = some .home ∧
    decodeTableWord 24 0x0E0105 = some (.setPosition 1 5) ∧
    decodeTableWord 24 0x0F0000 = some .moveLeft ∧
    decodeTableWord 24 0x100000 = some .moveRight ∧
    decodeTableWord 24 0x110000 = some .moveUp ∧
    decodeTableWord 24 0x120000 = some .moveDown := by decide

theorem test_decode_init_and_line_rows :
    decodeTableWord 24 0x130000 = some .pinsInit ∧
    decodeTableWord 24 0x140000 = some .init ∧
    decodeTableWord 24 0x150100 = some (.clearLine 1) := by decide

theorem test_decode_wire_rows :
    decodeTableWord 8 0x01 = some .clearDisplay ∧
    decodeTableWord 8 0x02 = some .returnHome ∧
    decodeTableWord 8 0x06 = some (.entryModeSet true false) ∧
    decodeTableWord 8 0x0E = some (.displayControl true true false) ∧
    decodeTableWord 8 0x10 = some .cursorLeft ∧
    decodeTableWord 8 0x14 = some .cursorRight ∧
    decodeTableWord 8 0x18 = some .displayLeft ∧
    decodeTableWord 8 0x1C = some .displayRight ∧
    decodeTableWord 8 0x38 = some (.functionSet true true false) ∧
    decodeTableWord 8 0x7F = some (.setCgramAddr 0x3F) ∧
    decodeTableWord 8 0xC5 = some (.setDdramAddr 0x45) ∧
    decodeTableWord 8 0x00 = some (.dataByte 0x00) := by decide

theorem test_decode_rejects_by_name :
    decode (.host 0x160000) = .error (.reservedSelector 0x16) ∧
    decode (.wireCommand 0x03) = .error (.unclassedWireByte 0x03) ∧
    decode (.wireCommand 0x13) = .error (.unclassedWireByte 0x13) ∧
    decodeTableWord 24 0x1FFFFF = none ∧ decodeTableWord 24 0x200000 = none ∧ decodeTableWord 32 0 = none := by decide

/-- R87's examples; operands are printed in decimal. -/
theorem test_assembly :
    assembly (.setPosition 1 5) = "SET_POSITION 1, 5" ∧ assembly (.sendData 0x41) = "SEND_DATA 65" ∧
    assembly .init = "INIT" := ⟨by rfl, by rfl, by rfl⟩

/-! ## Well-formedness: one ill-formed term for each check (R72) -/

theorem test_ill_formed_terms_are_refused :
    (Instr.sendBits 0 5).wellFormed = false ∧
    (Instr.setAcAutoIncrease 2).wellFormed = false ∧
    (Instr.setDisplayFollowCursor 2).wellFormed = false ∧
    (Instr.setDisplayOn 2).wellFormed = false ∧
    (Instr.setCursorVisible 2).wellFormed = false ∧
    (Instr.setCursorBlink 255).wellFormed = false ∧
    (Instr.setDataTransBits 5).wellFormed = false ∧
    (Instr.setDisplayLines 0).wellFormed = false ∧
    (Instr.setDotMatrix 2).wellFormed = false ∧
    (Instr.setPosition 2 0).wellFormed = false ∧
    (Instr.setPosition 0 40).wellFormed = false ∧
    (Instr.clearLine 2).wellFormed = false := by decide

/-! ## Raw operations -/

/-- V-BITS-1. -/
theorem test_sendBits : seen (exec (.sendBits 0xA5 8) (std .eight)) =
    some (wires8 [1, 0, 1, 0, 0, 1, 0, 1], 0x00, some .ok) := by decide

/-- V-BITS-8: readiness is tested before the width. -/
theorem test_sendBits_not_ready : seen (exec (.sendBits 0xA5 5) (cold .eight)) =
    some ([], 0x00, some .invalidState) := by decide

/-- V-BYTE-1. -/
theorem test_sendByte_four : seen (exec (.sendByte 0x28) (std .four)) =
    some (wires4 [0, 1, 0, 0] ++ wires4 [0, 0, 0, 1], 0x00, some .ok) := by decide

/-- V-CMD-3: the shadow stays. -/
theorem test_sendCommand : seen (exec (.sendCommand 0xC5) (at_ .eight 0x10)) =
    some (rs false :: wires8 [1, 0, 1, 0, 0, 0, 1, 1], 0x10, some .ok) := by decide

/-- V-DATA-2. -/
theorem test_sendData_wraps : seen (exec (.sendData 0x41) (at_ .four 0x27)) =
    some (rs true :: (wires4 [0, 0, 1, 0] ++ wires4 [1, 0, 0, 0]), 0x40, some .ok) := by decide

/-- V-DATA-4: forward with `ac_auto_increase` 0. -/
theorem test_sendData_ignores_entry_mode :
    (seen (exec (.sendData 0x41)
      { at_ .eight 0x05 with settings := { (std .eight).settings with acAutoIncrease := false } })).map (·.2.1) =
      some 0x06 := by decide

/-! ## Commands and setters -/

/-- V-CLR-1. -/
theorem test_clear : seen (exec .clear (at_ .eight 0x45)) =
    some (rs false :: wires8 [1, 0, 0, 0, 0, 0, 0, 0] ++ [.wait 2000], 0x00, some .ok) := by decide

/-- V-HOME-1. -/
theorem test_home : seen (exec .home (at_ .four 0x12)) =
    some (rs false :: (wires4 [0, 0, 0, 0] ++ wires4 [0, 1, 0, 0]) ++ [.wait 2000], 0x00, some .ok) := by decide

/-- V-SET-1: 0x04. -/
theorem test_setAcAutoIncrease : seen (exec (.setAcAutoIncrease 0) (std .eight)) =
    some (rs false :: wires8 [0, 0, 1, 0, 0, 0, 0, 0] ++ [.wait 40], 0x00, some .ok) := by decide

/-- From std8: 0x07 (41_commands.md R134's example). -/
theorem test_setDisplayFollowCursor : seen (exec (.setDisplayFollowCursor 1) (std .eight)) =
    some (rs false :: wires8 [1, 1, 1, 0, 0, 0, 0, 0] ++ [.wait 40], 0x00, some .ok) := by decide

/-- V-SET-5: 0x08. -/
theorem test_setDisplayOn : seen (exec (.setDisplayOn 0) (std .eight)) =
    some (rs false :: wires8 [0, 0, 0, 1, 0, 0, 0, 0] ++ [.wait 40], 0x00, some .ok) := by decide

/-- V-SET-17: the field is stored before the gate. -/
theorem test_setDisplayOn_not_ready : exec (.setDisplayOn 0) (raw .eight) =
    .next { raw .eight with settings := { (std .eight).settings with displayOn := false },
                            results := [.invalidState] } := by rfl

/-- R136's example: 0x0E. -/
theorem test_setCursorVisible : seen (exec (.setCursorVisible 1) (std .eight)) =
    some (rs false :: wires8 [0, 1, 1, 1, 0, 0, 0, 0] ++ [.wait 40], 0x00, some .ok) := by decide

/-- V-SET-13. -/
theorem test_setCursorVisible_bad : seen (exec (.setCursorVisible 2) (std .eight)) =
    some ([], 0x00, some .invalidArgument) := by decide

/-- With the cursor hidden: 0x0D. -/
theorem test_setCursorBlink : seen (exec (.setCursorBlink 1) (std .eight)) =
    some (rs false :: wires8 [1, 0, 1, 1, 0, 0, 0, 0] ++ [.wait 40], 0x00, some .ok) := by decide

/-- V-SET-19. -/
theorem test_setDataTransBits : exec (.setDataTransBits 4) (std .eight) =
    .next { std .eight with settings := { (std .eight).settings with dataTransBits := .four }, pinsReady := false,
                            writeReady := false, readReady := false, results := [.ok] } := by rfl

/-- V-SET-16. -/
theorem test_setDataTransBits_bad : exec (.setDataTransBits 5) (std .eight) =
    .next { std .eight with results := [.invalidArgument] } := by rfl

/-- V-SET-9's byte: 0x30. -/
theorem test_setDisplayLines : seen (exec (.setDisplayLines 1) (std .eight)) =
    some (rs false :: wires8 [0, 0, 0, 0, 1, 1, 0, 0] ++ [.wait 40], 0x00, some .ok) := by decide

/-- V-SET-21: 0x2C. -/
theorem test_setDotMatrix : seen (exec (.setDotMatrix 1) (std .four)) =
    some (rs false :: (wires4 [0, 1, 0, 0] ++ wires4 [0, 0, 1, 1]) ++ [.wait 40], 0x00, some .ok) := by decide

/-! ## The cursor -/

/-- S4. -/
theorem test_wraps : adv 0x27 = 0x40 ∧ adv 0x67 = 0x00 ∧ ret 0x00 = 0x67 ∧ ret 0x40 = 0x27 := by decide

/-- V-POS-1: 0xC5. -/
theorem test_setPosition : seen (exec (.setPosition 1 5) (std .eight)) =
    some (rs false :: wires8 [1, 0, 1, 0, 0, 0, 1, 1] ++ [.wait 40], 0x45, some .ok) := by decide

/-- V-POS-8: the operand before the gate. -/
theorem test_setPosition_bad : seen (exec (.setPosition 2 0) (raw .eight)) =
    some ([], 0x00, some .invalidArgument) := by decide

/-- V-MOV-6 in std4: 0xA7. -/
theorem test_moveLeft_jumps : seen (exec .moveLeft (at_ .four 0x40)) =
    some (rs false :: (wires4 [0, 1, 0, 1] ++ wires4 [1, 1, 1, 0]) ++ [.wait 40], 0x27, some .ok) := by decide

/-- V-MOV-5: 0x10. -/
theorem test_moveLeft_shifts : seen (exec .moveLeft (at_ .eight 0x41)) =
    some (rs false :: wires8 [0, 0, 0, 0, 1, 0, 0, 0] ++ [.wait 40], 0x40, some .ok) := by decide

/-- V-MOV-3: 0x80. -/
theorem test_moveRight_jumps : seen (exec .moveRight (at_ .eight 0x67)) =
    some (rs false :: wires8 [0, 0, 0, 0, 0, 0, 0, 1] ++ [.wait 40], 0x00, some .ok) := by decide

/-- V-MOV-1: 0x14. -/
theorem test_moveRight_shifts : seen (exec .moveRight (at_ .eight 0x26)) =
    some (rs false :: wires8 [0, 0, 1, 0, 1, 0, 0, 0] ++ [.wait 40], 0x27, some .ok) := by decide

/-- V-MOV-9: 0x85. -/
theorem test_moveUp : seen (exec .moveUp (at_ .eight 0x45)) =
    some (rs false :: wires8 [1, 0, 1, 0, 0, 0, 0, 1] ++ [.wait 40], 0x05, some .ok) := by decide

/-- V-MOV-11 and V-MOV-14. -/
theorem test_moveUp_row0 : exec .moveUp (at_ .eight 0x05) = .refused .moveUpOnRow0 ∧
    seen (exec .moveUp { raw .eight with cursor := 0x05 }) = some ([], 0x05, some .invalidState) :=
  ⟨by rfl, by decide⟩

/-- V-MOV-10: 0xE7. -/
theorem test_moveDown : seen (exec .moveDown (at_ .eight 0x27)) =
    some (rs false :: wires8 [1, 1, 1, 0, 0, 1, 1, 1] ++ [.wait 40], 0x67, some .ok) := by decide

/-- V-MOV-12. -/
theorem test_moveDown_row1 : exec .moveDown (at_ .eight 0x45) = .refused .moveDownOnRow1 := by rfl

/-! ## Initialisation and lines -/

/-- V-PINS-2. -/
theorem test_pinsInit : exec .pinsInit { cold .four with boundData := 8 } =
    .next { raw .four with level := .allUnknown, results := [.ok] } := by rfl

/-- V-INIT-3. -/
theorem test_init_pins_not_ready : seen (exec .init State.reset) =
    some ([.wait 15000], 0x00, some .invalidState) := by decide

/-- V-INIT-2: 161 events, 24976 µs, the cursor at 0. -/
theorem test_init : (seen (exec .init (raw .four))).map (fun x => (x.1.length, minDuration x.1, x.2)) =
    some (161, 24976, 0x00, some .ok) := by decide +kernel

/-- V-LINE-2: 575 events, the cursor on the other row. -/
theorem test_clearLine : (seen (exec (.clearLine 1) (std .eight))).map (fun x => (x.1.length, x.2)) =
    some (575, 0x00, some .ok) := by decide +kernel

/-- V-LINE-4. -/
theorem test_clearLine_bad : seen (exec (.clearLine 2) (std .eight)) = some ([], 0x00, some .invalidArgument) := by
  decide

/-- P4: 618 events, 4524 µs, the cursor after "HI". -/
theorem test_printLine : (seen (printLine [0x48, 0x49] 0 (std .eight))).map
    (fun x => (x.1.length, minDuration x.1, x.2)) = some (618, 4524, 0x02, some .ok) := by decide +kernel

/-! ## Wire rows: the byte of R75 to R83, raw -/

theorem test_wire_rows_without_fields (s : State) :
    exec .clearDisplay s = exec (.sendCommand 0x01) s ∧ exec .returnHome s = exec (.sendCommand 0x02) s ∧
    exec .cursorLeft s = exec (.sendCommand 0x10) s ∧ exec .cursorRight s = exec (.sendCommand 0x14) s ∧
    exec .displayLeft s = exec (.sendCommand 0x18) s ∧ exec .displayRight s = exec (.sendCommand 0x1C) s :=
  ⟨rfl, rfl, rfl, rfl, rfl, rfl⟩

/-- Section 2.13's tables. -/
theorem test_wire_rows_with_fields (s : State) :
    exec (.entryModeSet true false) s = exec (.sendCommand 0x06) s ∧
    exec (.displayControl true false true) s = exec (.sendCommand 0x0D) s ∧
    exec (.functionSet false true false) s = exec (.sendCommand 0x28) s ∧
    exec (.setCgramAddr 0x3F) s = exec (.sendCommand 0x7F) s ∧
    exec (.setDdramAddr 0x67) s = exec (.sendCommand 0xE7) s ∧
    exec (.dataByte 0x48) s = exec (.sendData 0x48) s :=
  ⟨rfl, rfl, rfl, rfl, rfl, rfl⟩

/-! ## Steps -/

/-- V-RSV-3: a reserved selector, in the reset state. -/
theorem test_step_reserved : step (State.reset.withFetchWord 24 0x1F0000) =
    .next { State.reset with results := [.invalidArgument] } := by rfl

/-- V-PINS-1: the first step after a program is presented at reset. -/
theorem test_step_pinsInit : step (State.reset.withFetchWord 24 0x130000) =
    .next { State.reset with pinsReady := true, boundData := 4, results := [.ok] } := by rfl

/-- V-CMD-6, as the wire command byte of no class. -/
theorem test_step_unclassed :
    seen (step { std .eight with requests := [.wireCommand 0x00] }) =
      some (rs false :: wires8 [0, 0, 0, 0, 0, 0, 0, 0], 0x00, some .ok) := by decide

/-! ## Witnesses: states and operands that meet the hypotheses of each obligation, clause by clause, at boundary values -/

/-- With a request on the port. -/
def asked (s : State) (r : Request) : State := { s with requests := [r] }

def isNext : Answer → Bool
  | .next _ => true
  | .fault _ => false
  | .refused _ => false

theorem next_of_isNext {a : Answer} (h : isNext a = true) : ∃ t, a = .next t := by
  cases a with
  | next t => exact ⟨t, rfl⟩
  | fault f => cases h
  | refused r => cases h

/-- A next state whose trace goes on from the empty one. -/
theorem next_with_trace {a : Answer} {s : State} (hs : s.trace = []) (h : isNext a = true) :
    ∃ t es, a = .next t ∧ t.trace = s.trace ++ es := by
  obtain ⟨t, ht⟩ := next_of_isNext h
  exact ⟨t, t.trace, ht, by rw [hs, List.nil_append]⟩

theorem std_cooked (w : TransferWidth) (c : Address) : CookedReady (at_ w c) := by
  cases w <;> exact ⟨rfl, rfl, rfl⟩

theorem raw_ready (w : TransferWidth) : RawReady (raw w) := by
  cases w <;> exact ⟨rfl, rfl⟩

theorem std_invariant (w : TransferWidth) : Invariant (std w) := by
  cases w <;> exact
    { readReady_false := rfl, writeReady_pinsReady := fun _ => rfl, pinsReady_bound := fun _ => rfl,
      bound_legal := by decide, cursor_inRows := rfl, rw_not_high := nofun, e_not_high := nofun,
      trace_write_only := by decide }

theorem reset_invariant : Invariant State.reset :=
  { readReady_false := rfl, writeReady_pinsReady := nofun, pinsReady_bound := nofun, bound_legal := .inl rfl,
    cursor_inRows := rfl, rw_not_high := nofun, e_not_high := nofun, trace_write_only := by decide }

theorem witness_EncodeOfDecodedWireByteIsTheByte :
    decode (.wireCommand 0x14) = .ok .cursorRight ∧ decode (.wireCommand 0xFF) = .ok (.setDdramAddr 0x7F) :=
  ⟨rfl, rfl⟩

theorem witness_IgnoredOperandFieldsDoNotMatter :
    usesFirst 0x04 = false ∧ usesFirst 0x16 = false ∧ usesSecond 0x01 = false ∧ usesSecond 0x1F = false := by decide

theorem witness_StepRunsTheDecodedInstruction :
    (asked State.reset (.host 0x140000)).requests = .host 0x140000 :: [] ∧ decode (.host 0x140000) = .ok .init :=
  ⟨rfl, rfl⟩

theorem witness_ReservedSelectorReturnsInvalidArgument :
    ((asked State.reset (.host 0x160000)).requests = .host 0x160000 :: [] ∧
      0x16 ≤ (0x160000 : HostWord).toNat / 2 ^ 16) ∧ 0x16 ≤ (0x1FFFFF : HostWord).toNat / 2 ^ 16 := by decide

theorem witness_StepWithoutAnInstruction :
    State.reset.requests = [] ∧
    (asked (std .eight) (.wireCommand 0x03)).requests = .wireCommand 0x03 :: [] ∧ 0x03 ∈ unclassedBytes := by decide

theorem witness_SendBitsTransfersOrFails :
    (cold .eight).pinsReady = false ∧
    ((std .eight).pinsReady = true ∧ (std .eight).boundData.val ≠ (4 : Byte).toNat) ∧
    ((std .eight).pinsReady = true ∧ (std .eight).boundData = 8) ∧
    ((std .four).pinsReady = true ∧ (std .four).boundData = 4) := by decide

theorem witness_SendByteIsOneOrTwoTransfers :
    (cold .eight).pinsReady = false ∧
    (({ std .four with boundData := 8 } : State).pinsReady = true ∧
      ({ std .four with boundData := 8 } : State).boundData ≠ widthLines (std .four).settings.dataTransBits) ∧
    ((std .eight).pinsReady = true ∧ (std .eight).settings.dataTransBits = .eight ∧ (std .eight).boundData = 8) ∧
    ((std .four).pinsReady = true ∧ (std .four).settings.dataTransBits = .four ∧ (std .four).boundData = 4) := by decide

/-- SendCommandPutsTheByteOnTheBus, SendDataAdvancesTheCursor, WireRowsSendTheirByte, InitRunsTheTimedSequence. -/
theorem witness_raw_statements : (cold .four).pinsReady = false ∧ RawReady (raw .four) ∧ RawReady (raw .eight) :=
  ⟨rfl, raw_ready _, raw_ready _⟩

/-- ClearSendsWaitsAndHomesTheCursor, HomeSendsWaitsAndHomesTheCursor; and the gate and the ready block of
EntryModeSettersStoreThenSend, DisplayControlSettersStoreThenSend, FunctionSetSettersStoreThenSend. -/
theorem witness_cooked_statements :
    (raw .four).writeReady = false ∧ CookedReady (std .four) ∧ CookedReady (std .eight) :=
  ⟨rfl, std_cooked .four 0, std_cooked .eight 0⟩

/-- The illegal operands of the three setter statements and of WidthChangeClearsReadinessAndSendsNothing. -/
theorem witness_setter_statements :
    ((2 : Byte) ≠ 0 ∧ (2 : Byte) ≠ 1) ∧ ((0 : Byte) ≠ 1 ∧ (0 : Byte) ≠ 2) ∧ ((3 : Byte) ≠ 1 ∧ (3 : Byte) ≠ 2) ∧
    ((5 : Byte) ≠ 4 ∧ (5 : Byte) ≠ 8) := by decide

/-- AdvanceAndRetreatFollowTheWrapTable, AdvanceIsOneCycleOfEightyAndRetreatUndoesIt. -/
theorem witness_inRows : inRows 0x00 = true ∧ inRows 0x27 = true ∧ inRows 0x40 = true ∧ inRows 0x67 = true := by decide

theorem witness_SetPositionSendsTheAddressAndMovesTheCursor :
    (1 < (2 : Byte).toNat ∨ 39 < (0 : Byte).toNat) ∧ (1 < (0 : Byte).toNat ∨ 39 < (40 : Byte).toNat) ∧
    ((1 : Byte).toNat ≤ 1 ∧ (39 : Byte).toNat ≤ 39 ∧ (raw .eight).writeReady = false) ∧
    ((1 : Byte).toNat ≤ 1 ∧ (39 : Byte).toNat ≤ 39 ∧ CookedReady (std .eight)) :=
  ⟨by decide, by decide, by decide, by decide, by decide, std_cooked .eight 0⟩

theorem witness_MoveRightShiftsOrJumps :
    (raw .eight).writeReady = false ∧
    (CookedReady (at_ .eight 0x27) ∧ (at_ .eight 0x27).cursor = 0x27) ∧
    (CookedReady (at_ .eight 0x67) ∧ (at_ .eight 0x67).cursor = 0x67) ∧
    (CookedReady (at_ .eight 0x26) ∧ (at_ .eight 0x26).cursor ≠ 0x27 ∧ (at_ .eight 0x26).cursor ≠ 0x67) :=
  ⟨rfl, ⟨std_cooked _ _, rfl⟩, ⟨std_cooked _ _, rfl⟩, std_cooked _ _, by decide, by decide⟩

theorem witness_MoveLeftShiftsOrJumps :
    (raw .eight).writeReady = false ∧
    (CookedReady (at_ .eight 0x00) ∧ (at_ .eight 0x00).cursor = 0x00) ∧
    (CookedReady (at_ .eight 0x40) ∧ (at_ .eight 0x40).cursor = 0x40) ∧
    (CookedReady (at_ .eight 0x41) ∧ (at_ .eight 0x41).cursor ≠ 0x00 ∧ (at_ .eight 0x41).cursor ≠ 0x40) :=
  ⟨rfl, ⟨std_cooked _ _, rfl⟩, ⟨std_cooked _ _, rfl⟩, std_cooked _ _, by decide, by decide⟩

theorem witness_MoveUpChangesTheRow :
    (raw .eight).writeReady = false ∧
    ((at_ .eight 0x27).writeReady = true ∧ (at_ .eight 0x27).cursor.toNat < 0x40) ∧
    (CookedReady (at_ .eight 0x40) ∧ 0x40 ≤ (at_ .eight 0x40).cursor.toNat) :=
  ⟨rfl, ⟨rfl, by decide⟩, std_cooked _ _, by decide⟩

theorem witness_MoveDownChangesTheRow :
    (raw .eight).writeReady = false ∧
    ((at_ .eight 0x40).writeReady = true ∧ 0x40 ≤ (at_ .eight 0x40).cursor.toNat) ∧
    (CookedReady (at_ .eight 0x27) ∧ (at_ .eight 0x27).cursor.toNat < 0x40) :=
  ⟨rfl, ⟨rfl, by decide⟩, std_cooked _ _, by decide⟩

theorem witness_ClearLineWritesFortySpaces :
    1 < (2 : Byte).toNat ∧ ((1 : Byte).toNat ≤ 1 ∧ (raw .four).writeReady = false) ∧
    ((1 : Byte).toNat ≤ 1 ∧ CookedReady (std .four)) :=
  ⟨by decide, by decide, by decide, std_cooked .four 0⟩

theorem witness_PrintLineWritesTheTextOnItsRow :
    40 < (List.replicate 41 (0x41 : Byte)).length ∧
    ((List.replicate 40 (0x41 : Byte)).length ≤ 40 ∧ 1 < (2 : Byte).toNat) ∧
    (([] : List Byte).length ≤ 40 ∧ (0 : Byte).toNat ≤ 1 ∧ (raw .eight).writeReady = false) ∧
    ((List.replicate 40 (0x41 : Byte)).length ≤ 40 ∧ (1 : Byte).toNat ≤ 1 ∧ CookedReady (std .eight)) :=
  ⟨by decide, by decide, by decide, by decide, by decide, std_cooked .eight 0⟩

theorem witness_StepKeepsTheInvariants :
    Invariant (asked (std .eight) (.host 0x034100)) ∧ ∃ t, step (asked (std .eight) (.host 0x034100)) = .next t :=
  ⟨{ std_invariant .eight with }, next_of_isNext (by decide)⟩

theorem witness_ReadinessChangesOnlyWhereTheSpecSays :
    (∃ t, exec .pinsInit (cold .four) = .next t ∧ (cold .four).pinsReady = false ∧ t.pinsReady = true) ∧
    (∃ t, exec .init (raw .four) = .next t ∧ (raw .four).writeReady = false ∧ t.writeReady = true) ∧
    (∃ t, exec .clear (std .four) = .next t ∧ (std .four).readReady = false) ∧
    (∃ t, exec (.setDataTransBits 4) (std .four) = .next t ∧ (std .four).pinsReady = true ∧ t.pinsReady = false) :=
  ⟨⟨_, rfl, rfl, rfl⟩, ⟨_, rfl, rfl, rfl⟩, ⟨_, rfl, rfl⟩, ⟨_, rfl, rfl, rfl⟩⟩

theorem witness_EachRequestIsAnsweredOnce :
    (asked (std .eight) (.host 0x040000)).requests = .host 0x040000 :: [] ∧
    ∃ t, step (asked (std .eight) (.host 0x040000)) = .next t :=
  ⟨rfl, next_of_isNext (by decide)⟩

/-- CursorAndBoundLinesFrame and PinsFrame, clause by clause; its next states are witnesses of NoInstructionRaisesRW,
LevelsFollowTheEvents, SettingsFrame and LevelsAndReadReadyAreNeverRead, which assume nothing more. -/
theorem witness_frames :
    (writesCursor (.sendCommand 0x01) = false ∧ Instr.sendCommand 0x01 ≠ .pinsInit ∧
      RawReady (std .four) ∧ (std .four).settings.dataTransBits = .four ∧
      ∃ t, exec (.sendCommand 0x01) (std .four) = .next t) ∧
    (∃ t, exec .pinsInit (std .four) = .next t) ∧ (∃ t, exec (.setDataTransBits 4) (std .four) = .next t) ∧
    (∃ t, exec (.sendBits 0x0F 4) (std .four) = .next t) ∧ (∃ t, exec (.sendByte 0x0F) (std .four) = .next t) :=
  ⟨⟨rfl, by decide, (std_cooked .four 0).2, rfl, next_of_isNext (by decide)⟩, next_of_isNext (by decide),
    next_of_isNext (by decide), next_of_isNext (by decide), next_of_isNext (by decide)⟩

theorem witness_SendingLeavesEnableLow :
    ∃ t, exec (.sendBits 0xFF 8) (std .eight) = .next t ∧ t.results = (std .eight).results ++ [.ok] ∧
      Instr.sendBits 0xFF 8 ≠ .pinsInit ∧ ∀ n, Instr.sendBits 0xFF 8 ≠ .setDataTransBits n :=
  ⟨_, rfl, rfl, by decide, nofun⟩

theorem witness_InvalidArgumentLeavesNothing :
    Invariant (std .eight) ∧ ∃ t, exec (.setPosition 0 40) (std .eight) = .next t ∧
      t.results = (std .eight).results ++ [.invalidArgument] :=
  ⟨std_invariant _, _, rfl, rfl⟩

theorem witness_InvalidStateLeavesWhatTheSpecLists :
    Invariant State.reset ∧ ∃ t, exec (.setCursorVisible 1) State.reset = .next t ∧
      t.results = State.reset.results ++ [.invalidState] :=
  ⟨reset_invariant, _, rfl, rfl⟩

theorem witness_CookedOperationsNeedWriteReady :
    cooked (.setDisplayOn 1) = true ∧ (raw .eight).writeReady = false ∧
    ∃ t, exec (.setDisplayOn 1) (raw .eight) = .next t := ⟨rfl, rfl, next_of_isNext (by decide)⟩

theorem witness_ReceiverReadsTheBytesSent :
    (RawReady (std .four) ∧ ∃ t es, exec (.sendCommand 0xC5) (std .four) = .next t ∧
      t.trace = (std .four).trace ++ es) ∧
    (RawReady (std .eight) ∧ ∃ t es, exec (.sendData 0x48) (std .eight) = .next t ∧
      t.trace = (std .eight).trace ++ es) ∧
    (RawReady (raw .four) ∧ ∃ t es, exec .init (raw .four) = .next t ∧ t.trace = (raw .four).trace ++ es) ∧
    (CookedReady (std .four) ∧ (1 : Byte).toNat ≤ 1 ∧ ∃ t es, printLine [0x48, 0x49] 1 (std .four) = .next t ∧
      t.trace = (std .four).trace ++ es) :=
  ⟨⟨(std_cooked .four 0).2, next_with_trace rfl (by decide)⟩, ⟨(std_cooked .eight 0).2, next_with_trace rfl (by decide)⟩,
    ⟨raw_ready _, next_with_trace rfl (by decide +kernel)⟩,
    std_cooked .four 0, by decide, next_with_trace rfl (by decide +kernel)⟩

theorem witness_MinimumDurations :
    (RawReady (raw .eight) ∧ ∃ t es, exec .init (raw .eight) = .next t ∧ t.trace = (raw .eight).trace ++ es) ∧
    (CookedReady (std .four) ∧ ∃ t es, exec .clear (std .four) = .next t ∧ t.trace = (std .four).trace ++ es) ∧
    (RawReady (std .four) ∧ ∃ t es, exec (.sendData 0) (std .four) = .next t ∧ t.trace = (std .four).trace ++ es) ∧
    ((1 : Byte).toNat ≤ 1 ∧ CookedReady (std .eight) ∧ ∃ t es, exec (.clearLine 1) (std .eight) = .next t ∧
      t.trace = (std .eight).trace ++ es) :=
  ⟨⟨raw_ready _, next_with_trace rfl (by decide +kernel)⟩, ⟨std_cooked .four 0, next_with_trace rfl (by decide)⟩,
    ⟨(std_cooked .four 0).2, next_with_trace rfl (by decide)⟩,
    by decide, std_cooked .eight 0, next_with_trace rfl (by decide +kernel)⟩

end Sys2Proof.Tests
end

section
/-! PROOFS. Reserved selectors of the request word (R70, R73). -/

namespace Sys2Proof

/-- R70: the selector is bits 20:16, the top of the 21-bit word, so it is the word's quotient by 2^16. -/
theorem toNat_opField (w : HostWord) : (opField w).toNat = w.toNat / 2 ^ 16 := by
  have hw : w.toNat / 2 ^ 16 < 2 ^ 5 := by omega
  simp only [opField, BitVec.extractLsb'_toNat, Nat.shiftRight_eq_div_pow]
  exact Nat.mod_eq_of_lt hw

/-- R73: the rows of R71 end at selector 0x15, so only the last arm is left and the others' selectors are too small. -/
theorem decodeHost_of_reserved (w : HostWord) (h : 0x16 ≤ (opField w).toNat) :
    decodeHost w = .error (.reservedSelector (opField w)) := by
  unfold decodeHost
  split
  on_goal -1 => rfl
  all_goals omega

end Sys2Proof

namespace Sys2Proof.Machine

/-- R7: with a request on the port, the step takes it and runs it. -/
theorem step_of_requests_cons {s : State} {r : Request} {rest : List Request} (h : s.requests = r :: rest) :
    step s = runRequest r { s with requests := rest } := by
  simp only [step, h, State.takeRequest, List.tail_cons]

theorem runRequest_of_reserved {r : Request} {op : BitVec 5} (h : decode r = .error (.reservedSelector op))
    (s : State) : runRequest r s = .next (s.report .invalidArgument) := by
  simp only [runRequest, h, reservedSelector, raise, Flow.complete_raised, ErrorKind.result]

/-- Settles O9: the word decodes to a reserved selector, and running that only answers. -/
theorem reservedSelectorReturnsInvalidArgument : Obligations.ReservedSelectorReturnsInvalidArgument := by
  unfold Obligations.ReservedSelectorReturnsInvalidArgument
  intro s w rest hreq hop
  have hdec : decode (.host w) = .error (.reservedSelector (opField w)) :=
    decodeHost_of_reserved w (toNat_opField w ▸ hop)
  rw [step_of_requests_cons hreq, runRequest_of_reserved hdec, State.report]

end Sys2Proof.Machine
end

section
/-! PROOFS. The parallel write protocol: SEND_BITS, SEND_BYTE, SEND_COMMAND, SEND_DATA (R110 to R114). -/

namespace Sys2Proof.Machine

/-! ## What the four instructions run -/

theorem exec_sendBits (v w : Byte) (s : State) : exec (.sendBits v w) s = (sendBits v w.toNat s).complete := by
  rfl

theorem exec_sendByte (v : Byte) (s : State) : exec (.sendByte v) s = (sendByte v s).complete := by
  rfl

theorem exec_sendCommand (v : Byte) (s : State) : exec (.sendCommand v) s = (sendCommand v s).complete := by
  rfl

theorem exec_sendData (v : Byte) (s : State) : exec (.sendData v) s = (sendData v s).complete := by
  rfl

/-- R200, R206: an operation stopped by an error answers that error in the state it stopped in. -/
theorem complete_eq_of_raised {f : Flow} {e : ErrorKind} {s : State} (h : f = .raised e s) :
    f.complete = .next (s.afterResult e.result) := by
  rw [h, Flow.complete_raised, report_eq_afterResult]

theorem complete_eq_of_done {f : Flow} {s : State} (h : f = .done s) : f.complete = .next (s.afterResult .ok) := by
  rw [h, Flow.complete_done, report_eq_afterResult]

/-! ## The second check of `send_bits` -/

theorem sendBits_width_mismatch (s : State) (v : Byte) (w : Nat) (hp : s.pinsReady = true)
    (hw : s.boundData.val ≠ w) : sendBits v w s = .raised .invalidArgument s := by
  simp [sendBits, requirePinsReady, hp, beq_eq_false_iff_ne.mpr hw]

/-- R112 inherits the check of `send_bits`: in 4-bit mode the first transfer already fails it. -/
theorem sendByte_width_mismatch (s : State) (v : Byte) (hp : s.pinsReady = true)
    (hw : s.boundData ≠ widthLines s.settings.dataTransBits) : sendByte v s = .raised .invalidArgument s := by
  have hval : s.boundData.val ≠ (widthLines s.settings.dataTransBits).val := Fin.val_ne_of_ne hw
  unfold sendByte
  split
  next h4 =>
    rw [h4] at hval
    rw [sendBits_width_mismatch s _ 4 hp hval, Flow.andThen_raised]
  next h8 =>
    rw [h8] at hval
    exact sendBits_width_mismatch s _ 8 hp hval

/-! ## The state a transfer leaves (R19) -/

theorem emit_byteOnBus (s : State) (w : TransferWidth) (v : Byte) :
    s.emit (byteOnBus w v) =
      { s with trace := s.trace ++ byteOnBus w v, level := levelsAfterByte w v s.level } := by
  rw [State.emit, drive_byteOnBus]

/-- With eight lines bound a transfer is a whole byte. -/
theorem sendBits_on_eight (s : State) (v : Byte) (hp : s.pinsReady = true) (hb : s.boundData = 8) :
    sendBits v 8 s =
      .done { s with trace := s.trace ++ byteOnEight v, level := levelsAfterEight v s.level } := by
  have hval : s.boundData.val = 8 := by rw [hb]; rfl
  rw [sendBits_ready s v 8 hp hval, transfer_eight]
  exact congrArg Flow.done (emit_byteOnBus s .eight v)

/-- With four lines bound a transfer is a nibble, and its levels are those of the last nibble of a byte. -/
theorem sendBits_on_four (s : State) (v : Byte) (hp : s.pinsReady = true) (hb : s.boundData = 4) :
    sendBits v 4 s =
      .done { s with trace := s.trace ++ lowNibbleOnFour v, level := levelsAfterFour v s.level } := by
  have hval : s.boundData.val = 4 := by rw [hb]; rfl
  have hlevel : (lowNibbleOnFour v).foldl PinLevels.drive s.level = levelsAfterFour v s.level := rfl
  rw [sendBits_ready s v 4 hp hval, transfer_four_low, State.emit, hlevel]

/-! ## The statements -/

/-- Settles O14: each clause is `send_bits` stopped at a check or past both. -/
theorem sendBitsTransfersOrFails : Obligations.SendBitsTransfersOrFails := by
  unfold Obligations.SendBitsTransfersOrFails
  intro s v w
  rw [exec_sendBits]
  refine ⟨fun hp => ?notReady, fun hp hw => ?mismatch, fun hp hb hw => ?eight, fun hp hb hw => ?four⟩
  case notReady => exact complete_eq_of_raised (sendBits_not_ready s v _ hp)
  case mismatch => exact complete_eq_of_raised (sendBits_width_mismatch s v _ hp hw)
  case eight =>
    rw [hw]
    exact complete_eq_of_done (sendBits_on_eight s v hp hb)
  case four =>
    rw [hw]
    exact complete_eq_of_done (sendBits_on_four s v hp hb)

/-- Settles O15: `send_byte` stopped at a check of `send_bits`, or its byte on the bus in the mode. -/
theorem sendByteIsOneOrTwoTransfers : Obligations.SendByteIsOneOrTwoTransfers := by
  unfold Obligations.SendByteIsOneOrTwoTransfers
  intro s v
  rw [exec_sendByte]
  refine ⟨fun hp => ?notReady, fun hp hw => ?mismatch, fun hp hm hb => ?eight, fun hp hm hb => ?four⟩
  case notReady => exact complete_eq_of_raised (sendByte_not_ready s v hp)
  case mismatch => exact complete_eq_of_raised (sendByte_width_mismatch s v hp hw)
  case eight =>
    have hready : RawReady s := ⟨hp, by rw [hb, hm, widthLines]⟩
    rw [complete_eq_of_done (sendByte_ready s v hready), hm, emit_byteOnBus, byteOnBus, levelsAfterByte]
  case four =>
    have hready : RawReady s := ⟨hp, by rw [hb, hm, widthLines]⟩
    rw [complete_eq_of_done (sendByte_ready s v hready), hm, emit_byteOnBus, byteOnBus, levelsAfterByte]

/-- Settles O16: `send_command` on a block that is not ready, and on one that is. -/
theorem sendCommandPutsTheByteOnTheBus : Obligations.SendCommandPutsTheByteOnTheBus := by
  unfold Obligations.SendCommandPutsTheByteOnTheBus
  intro s v
  rw [exec_sendCommand]
  exact ⟨fun hp => complete_eq_of_raised (sendCommand_not_ready s v hp),
    fun hready => complete_eq_of_done (sendCommand_ready s v hready)⟩

/-- Settles O17: `send_data` on a block that is not ready, and on one that is, where the cursor moves by `adv`. -/
theorem sendDataAdvancesTheCursor : Obligations.SendDataAdvancesTheCursor := by
  unfold Obligations.SendDataAdvancesTheCursor
  intro s v
  rw [exec_sendData]
  exact ⟨fun hp => complete_eq_of_raised (sendData_not_ready s v hp),
    fun hready => complete_eq_of_done (sendData_ready s v hready)⟩

end Sys2Proof.Machine
end

section
/-! PROOFS. The command operations: CLEAR and HOME (R131, R132), the setters that send the command of their group (R130,
R133 to R137, R139, R140), and SET_DATA_TRANS_BITS (R138). -/

namespace Sys2Proof.Machine

/-! ## What the instructions run -/

theorem exec_clear (s : State) : exec .clear s = ((requireWriteReady s).andThen clearBody).complete := by rfl

theorem exec_home (s : State) : exec .home s = ((requireWriteReady s).andThen homeBody).complete := by rfl

theorem exec_setAcAutoIncrease (f : Byte) (s : State) : exec (.setAcAutoIncrease f) s =
    (setter (flagOperand f) (fun v c => { c with acAutoIncrease := v }) entryModeOf s).complete := by rfl

theorem exec_setDisplayFollowCursor (f : Byte) (s : State) : exec (.setDisplayFollowCursor f) s =
    (setter (flagOperand f) (fun v c => { c with displayFollowCursor := v }) entryModeOf s).complete := by rfl

theorem exec_setDisplayOn (f : Byte) (s : State) : exec (.setDisplayOn f) s =
    (setter (flagOperand f) (fun v c => { c with displayOn := v }) displayControlOf s).complete := by rfl

theorem exec_setCursorVisible (f : Byte) (s : State) : exec (.setCursorVisible f) s =
    (setter (flagOperand f) (fun v c => { c with cursorVisible := v }) displayControlOf s).complete := by rfl

theorem exec_setCursorBlink (f : Byte) (s : State) : exec (.setCursorBlink f) s =
    (setter (flagOperand f) (fun v c => { c with cursorBlink := v }) displayControlOf s).complete := by rfl

theorem exec_setDataTransBits (n : Byte) (s : State) :
    exec (.setDataTransBits n) s = (setDataTransBits n s).complete := by rfl

theorem exec_setDisplayLines (n : Byte) (s : State) : exec (.setDisplayLines n) s =
    (setter (linesOperand n) (fun v c => { c with displayLines := v }) functionSetOf s).complete := by rfl

theorem exec_setDotMatrix (n : Byte) (s : State) : exec (.setDotMatrix n) s =
    (setter (fontOperand n) (fun v c => { c with dotMatrix := v }) functionSetOf s).complete := by rfl

/-! ## Operands (R72) -/

theorem flagOperand_of_bool (b : Bool) : flagOperand (if b then 1 else 0) = some b := by
  cases b <;> rfl

theorem flagOperand_illegal {f : Byte} (h0 : f ≠ 0) (h1 : f ≠ 1) : flagOperand f = none := by
  rw [flagOperand, if_neg h0, if_neg h1]

theorem linesOperand_of_lineCount (x : LineCount) :
    linesOperand (if x = LineCount.two then 2 else 1) = some x := by
  cases x <;> rfl

theorem linesOperand_illegal {n : Byte} (h1 : n ≠ 1) (h2 : n ≠ 2) : linesOperand n = none := by
  rw [linesOperand, if_neg h1, if_neg h2]

theorem fontOperand_of_dotMatrix (x : DotMatrix) :
    fontOperand (if x = DotMatrix.f5x10 then 1 else 0) = some x := by
  cases x <;> rfl

theorem fontOperand_illegal {n : Byte} (h0 : n ≠ 0) (h1 : n ≠ 1) : fontOperand n = none := by
  rw [fontOperand, if_neg h0, if_neg h1]

theorem widthOperand_illegal {n : Byte} (h4 : n ≠ 4) (h8 : n ≠ 8) : widthOperand n = none := by
  rw [widthOperand, if_neg h4, if_neg h8]

/-! ## The consolidated commands as numbers (R77, R78, R80) -/

/-- R77: the two bits of the byte are at their own places, so OR is a sum. -/
theorem entryModeOf_eq_sum (c : Settings) : entryModeOf c =
    BitVec.ofNat 8 (0x04 + 2 * c.acAutoIncrease.toNat + c.displayFollowCursor.toNat) := by
  rw [entryModeOf]
  generalize c.acAutoIncrease = id, c.displayFollowCursor = sh
  cases id <;> cases sh <;> rfl

/-- R78: likewise for its three bits. -/
theorem displayControlOf_eq_sum (c : Settings) : displayControlOf c =
    BitVec.ofNat 8 (0x08 + 4 * c.displayOn.toNat + 2 * c.cursorVisible.toNat + c.cursorBlink.toNat) := by
  rw [displayControlOf]
  generalize c.displayOn = d, c.cursorVisible = v, c.cursorBlink = b
  cases d <;> cases v <;> cases b <;> rfl

/-- R80: likewise for its three fields. -/
theorem functionSetOf_eq_sum (c : Settings) : functionSetOf c =
    BitVec.ofNat 8 (0x20 + (if c.dataTransBits = TransferWidth.eight then 0x10 else 0) +
      (if c.displayLines = LineCount.two then 0x08 else 0) + (if c.dotMatrix = DotMatrix.f5x10 then 0x04 else 0)) := by
  rw [functionSetOf]
  generalize c.dataTransBits = w, c.displayLines = n, c.dotMatrix = f
  cases w <;> cases n <;> cases f <;> rfl

/-! ## The gate and what follows it -/

/-- R116: a cooked operation stopped at its gate. -/
theorem complete_gate_not_ready {s : State} (k : State → Flow) (h : s.writeReady = false) :
    ((requireWriteReady s).andThen k).complete = .next (s.afterResult .invalidState) :=
  complete_eq_of_raised (gate_not_ready s k h)

/-- A cooked operation past its gate whose body succeeds. -/
theorem complete_gate_ready {s t : State} {k : State → Flow} (h : s.writeReady = true) (hk : k s = .done t) :
    ((requireWriteReady s).andThen k).complete = .next (t.afterResult .ok) :=
  complete_eq_of_done ((gate_ready s k h).trans hk)

theorem clearBody_ready (s : State) (h : RawReady s) :
    clearBody s = .done (((s.afterCommand clearDisplayByte).afterWait tLong).setCursor 0x00) := by
  rw [clearBody, sendCommandAndWait_ready s _ _ h, Flow.andThen_done]

theorem homeBody_ready (s : State) (h : RawReady s) :
    homeBody s = .done (((s.afterCommand returnHomeByte).afterWait tLong).setCursor 0x00) := by
  rw [homeBody, sendCommandAndWait_ready s _ _ h, Flow.andThen_done]

/-! ## The three outcomes of a setter (R130) -/

section
variable {α : Type} {operand : Option α} {v : α} {store : α → Settings → Settings} {command : Settings → Byte}
  {s : State}

theorem complete_setter_illegal (h : operand = none) :
    (setter operand store command s).complete = .next (s.afterResult .invalidArgument) := by
  subst h
  exact complete_eq_of_raised rfl

theorem complete_setter_not_ready (h : operand = some v) (hw : s.writeReady = false) :
    (setter operand store command s).complete =
      .next ((s.setSettings (store v s.settings)).afterResult .invalidState) := by
  subst h
  exact complete_gate_not_ready _ hw

/-- The store must keep the width: the block then still has its lines bound when the command is sent. -/
theorem complete_setter_ready {byte : Byte} (h : operand = some v) (hs : CookedReady s)
    (hwidth : (store v s.settings).dataTransBits = s.settings.dataTransBits)
    (hbyte : command (store v s.settings) = byte) :
    (setter operand store command s).complete =
      .next ((((s.setSettings (store v s.settings)).afterCommand byte).afterWait tCmdUs).afterResult .ok) := by
  obtain ⟨hw, hp, hb⟩ := hs
  subst h hbyte
  have hready : RawReady (s.setSettings (store v s.settings)) := ⟨hp, by simpa [hwidth] using hb⟩
  exact complete_gate_ready hw (sendCommandAndWait_ready _ _ _ hready)

end

/-! ## SET_DATA_TRANS_BITS (R138) -/

theorem setDataTransBits_illegal {n : Byte} (s : State) (h : widthOperand n = none) :
    setDataTransBits n s = .raised .invalidArgument s := by
  simp only [setDataTransBits, h, raise]

theorem setDataTransBits_legal {n : Byte} {w : TransferWidth} (s : State) (h : widthOperand n = some w) :
    setDataTransBits n s = .done (s.setSettings { s.settings with dataTransBits := w }).clearReadiness := by
  simp only [setDataTransBits, h]

/-! ## The statements -/

/-- Settles O19: CLEAR stopped at its gate, or its body run. -/
theorem clearSendsWaitsAndHomesTheCursor : Obligations.ClearSendsWaitsAndHomesTheCursor := by
  unfold Obligations.ClearSendsWaitsAndHomesTheCursor
  intro s
  rw [exec_clear]
  exact ⟨complete_gate_not_ready _, fun ⟨hw, hready⟩ => complete_gate_ready hw (clearBody_ready s hready)⟩

/-- Settles O20: HOME stopped at its gate, or its body run. -/
theorem homeSendsWaitsAndHomesTheCursor : Obligations.HomeSendsWaitsAndHomesTheCursor := by
  unfold Obligations.HomeSendsWaitsAndHomesTheCursor
  intro s
  rw [exec_home]
  exact ⟨complete_gate_not_ready _, fun ⟨hw, hready⟩ => complete_gate_ready hw (homeBody_ready s hready)⟩

/-- Settles O21: the three outcomes of a setter, with R77's byte. -/
theorem entryModeSettersStoreThenSend : Obligations.EntryModeSettersStoreThenSend := by
  unfold Obligations.EntryModeSettersStoreThenSend
  intro s
  simp only [exec_setAcAutoIncrease, exec_setDisplayFollowCursor]
  refine ⟨fun f h0 h1 => ?illegal, fun b hw => ?notReady, fun b hs => ?ready⟩
  case illegal =>
    have h := flagOperand_illegal h0 h1
    exact ⟨complete_setter_illegal h, complete_setter_illegal h⟩
  case notReady =>
    have h := flagOperand_of_bool b
    exact ⟨complete_setter_not_ready h hw, complete_setter_not_ready h hw⟩
  case ready =>
    have h := flagOperand_of_bool b
    exact ⟨complete_setter_ready h hs rfl (entryModeOf_eq_sum _),
      complete_setter_ready h hs rfl (entryModeOf_eq_sum _)⟩

/-- Settles O22: the three outcomes of a setter, with R78's byte. -/
theorem displayControlSettersStoreThenSend : Obligations.DisplayControlSettersStoreThenSend := by
  unfold Obligations.DisplayControlSettersStoreThenSend
  intro s
  simp only [exec_setDisplayOn, exec_setCursorVisible, exec_setCursorBlink]
  refine ⟨fun f h0 h1 => ?illegal, fun b hw => ?notReady, fun b hs => ?ready⟩
  case illegal =>
    have h := flagOperand_illegal h0 h1
    exact ⟨complete_setter_illegal h, complete_setter_illegal h, complete_setter_illegal h⟩
  case notReady =>
    have h := flagOperand_of_bool b
    exact ⟨complete_setter_not_ready h hw, complete_setter_not_ready h hw, complete_setter_not_ready h hw⟩
  case ready =>
    have h := flagOperand_of_bool b
    exact ⟨complete_setter_ready h hs rfl (displayControlOf_eq_sum _),
      complete_setter_ready h hs rfl (displayControlOf_eq_sum _),
      complete_setter_ready h hs rfl (displayControlOf_eq_sum _)⟩

/-- Settles O23: the three outcomes of a setter, with R80's byte; neither setter stores the width. -/
theorem functionSetSettersStoreThenSend : Obligations.FunctionSetSettersStoreThenSend := by
  unfold Obligations.FunctionSetSettersStoreThenSend
  intro s
  simp only [exec_setDisplayLines, exec_setDotMatrix]
  refine ⟨fun n h1 h2 => complete_setter_illegal (linesOperand_illegal h1 h2),
    fun n h0 h1 => complete_setter_illegal (fontOperand_illegal h0 h1), fun hw => ?notReady, fun hs => ?ready⟩
  case notReady =>
    exact ⟨fun x => complete_setter_not_ready (linesOperand_of_lineCount x) hw,
      fun x => complete_setter_not_ready (fontOperand_of_dotMatrix x) hw⟩
  case ready =>
    exact ⟨fun x => complete_setter_ready (linesOperand_of_lineCount x) hs rfl (functionSetOf_eq_sum _),
      fun x => complete_setter_ready (fontOperand_of_dotMatrix x) hs rfl (functionSetOf_eq_sum _)⟩

/-- Settles O24: for both legal widths the operation stores and clears, with no gate and no event. -/
theorem widthChangeClearsReadinessAndSendsNothing : Obligations.WidthChangeClearsReadinessAndSendsNothing := by
  unfold Obligations.WidthChangeClearsReadinessAndSendsNothing
  intro s
  simp only [exec_setDataTransBits]
  have four : widthOperand 4 = some .four := rfl
  have eight : widthOperand 8 = some .eight := rfl
  exact ⟨complete_eq_of_done (setDataTransBits_legal s four), complete_eq_of_done (setDataTransBits_legal s eight),
    fun n h4 h8 => complete_eq_of_raised (setDataTransBits_illegal s (widthOperand_illegal h4 h8))⟩

end Sys2Proof.Machine
end

section
/-! PROOFS. The cursor operations: the wrap table (R161, R162), SET_POSITION (R164) and the four moves (R165 to R168). -/

namespace Sys2Proof.Machine

/-! ## What the instructions run -/

theorem exec_setPosition (row column : Byte) (s : State) :
    exec (.setPosition row column) s = (setPosition row column s).complete := by rfl

theorem exec_moveLeft (s : State) : exec .moveLeft s = ((requireWriteReady s).andThen moveLeftBody).complete := by rfl

theorem exec_moveRight (s : State) : exec .moveRight s = ((requireWriteReady s).andThen moveRightBody).complete := by
  rfl

theorem exec_moveUp (s : State) : exec .moveUp s = ((requireWriteReady s).andThen moveUpBody).complete := by rfl

theorem exec_moveDown (s : State) : exec .moveDown s = ((requireWriteReady s).andThen moveDownBody).complete := by rfl

/-! ## The wrap functions (R161, R162) -/

/-- R160: V is the two ranges of addresses. -/
theorem inRows_iff (c : Address) : inRows c = true ↔ c.toNat ≤ 0x27 ∨ (0x40 ≤ c.toNat ∧ c.toNat ≤ 0x67) := by
  simp [inRows]

/-- R161 before the last column of a row. -/
theorem adv_eq_add_one {c : Address} (hc : inRows c = true) (h27 : c ≠ 0x27) (h67 : c ≠ 0x67) : adv c = c + 1 := by
  have n27 : c.toNat ≠ 0x27 := fun h => h27 (BitVec.eq_of_toNat_eq h)
  have n67 : c.toNat ≠ 0x67 := fun h => h67 (BitVec.eq_of_toNat_eq h)
  unfold adv
  rcases (inRows_iff c).mp hc with row0 | row1
  · rw [if_pos (by omega)]
  · rw [if_neg (by omega), if_neg h27, if_pos (by omega)]

/-- R162 after the first column of a row. -/
theorem ret_eq_sub_one {c : Address} (hc : inRows c = true) (h00 : c ≠ 0x00) (h40 : c ≠ 0x40) : ret c = c - 1 := by
  have n40 : c.toNat ≠ 0x40 := fun h => h40 (BitVec.eq_of_toNat_eq h)
  unfold ret
  rcases (inRows_iff c).mp hc with row0 | row1
  · rw [if_neg h00, if_pos (by omega)]
  · rw [if_neg h00, if_neg (by omega), if_neg h40, if_pos (by omega)]

/-- `adv` in numbers. -/
theorem toNat_adv (c : Address) (hc : inRows c = true) :
    (adv c).toNat = if c = 0x27 then 0x40 else if c = 0x67 then 0x00 else c.toNat + 1 := by
  split_ifs with h27 h67
  · rw [h27]; rfl
  · rw [h67]; rfl
  · rw [adv_eq_add_one hc h27 h67]
    have hV := (inRows_iff c).mp hc
    bv_omega

/-- `ret` in numbers. -/
theorem toNat_ret (c : Address) (hc : inRows c = true) :
    (ret c).toNat = if c = 0x00 then 0x67 else if c = 0x40 then 0x27 else c.toNat - 1 := by
  split_ifs with h00 h40
  · rw [h00]; rfl
  · rw [h40]; rfl
  · rw [ret_eq_sub_one hc h00 h40]
    bv_omega

/-! ## The address-set command and the jump that sends it -/

/-- R82: an address has seven bits, so OR-ing in the class bit of the address-set is a sum. -/
theorem ddramByte_eq_sum (a : Address) : ddramByte a = BitVec.ofNat 8 (0x80 + a.toNat) := by
  have hsum : 0x80 ||| a.toNat = 0x80 + a.toNat := (Nat.two_pow_add_eq_or_of_lt a.isLt 1).symm
  apply BitVec.eq_of_toNat_eq
  rw [ddramByte, BitVec.toNat_or, BitVec.toNat_setWidth_of_le (by decide), BitVec.toNat_ofNat,
    Nat.mod_eq_of_lt (by omega)]
  exact hsum

section
variable {s : State} {body : State → Flow} {n : Nat} {a : Address}

/-- A cooked operation past its gate that sends a command, waits and moves the cursor. -/
theorem complete_commandThenCursor_ready {command : Byte} (hs : CookedReady s)
    (hbody : body s = commandThenCursor command a s) :
    ((requireWriteReady s).andThen body).complete =
      .next ((((s.afterCommand command).afterWait tCmdUs).setCursor a).afterResult .ok) :=
  complete_gate_ready hs.1 (hbody.trans (commandThenCursor_ready s command a hs.2))

/-- A cooked operation past its gate that jumps to an address: command and cursor as numbers. -/
theorem complete_jumpTo_ready (hs : CookedReady s) (hbody : body s = jumpTo a s) (ha : a.toNat = n) :
    ((requireWriteReady s).andThen body).complete =
      .next ((((s.afterCommand (BitVec.ofNat 8 (0x80 + n))).afterWait tCmdUs).setCursor
        (BitVec.ofNat 7 n)).afterResult .ok) := by
  subst ha
  rw [complete_commandThenCursor_ready hs hbody, ddramByte_eq_sum, BitVec.ofNat_toNat, BitVec.setWidth_eq]

/-- A cooked operation past its gate whose body has no meaning. -/
theorem complete_gate_refused {r : Refusal} (hw : s.writeReady = true) (hbody : body s = .refused r) :
    ((requireWriteReady s).andThen body).complete = .refused r := by
  rw [gate_ready s body hw, hbody, Flow.complete_refused]

end

/-! ## SET_POSITION (R164) -/

theorem positionOperand_illegal {row column : Byte} (h : 1 < row.toNat ∨ 39 < column.toNat) :
    positionOperand row column = none := by
  rw [positionOperand, if_neg (by omega)]

theorem positionOperand_legal {row column : Byte} (hr : row.toNat ≤ 1) (hc : column.toNat ≤ 39) :
    positionOperand row column = some (rowColumnAddress row column) := by
  rw [positionOperand, if_pos ⟨hr, hc⟩]

/-- R41: the address of a legal position fits in seven bits. -/
theorem toNat_rowColumnAddress {row column : Byte} (hr : row.toNat ≤ 1) (hc : column.toNat ≤ 39) :
    (rowColumnAddress row column).toNat = row.toNat * 0x40 + column.toNat := by
  rw [rowColumnAddress, BitVec.toNat_ofNat, Nat.mod_eq_of_lt (by omega)]

theorem setPosition_illegal {row column : Byte} (s : State) (h : positionOperand row column = none) :
    setPosition row column s = .raised .invalidArgument s := by
  simp only [setPosition, h, raise]

theorem setPosition_legal {row column : Byte} {a : Address} (s : State) (h : positionOperand row column = some a) :
    setPosition row column s = (requireWriteReady s).andThen (jumpTo a) := by
  simp only [setPosition, h]

/-! ## The bodies of the moves (R165 to R168) -/

section
variable {s : State}

theorem moveRightBody_at_end {c n : Address} (hc : s.cursor = c) (hend : c = 0x27 ∨ c = 0x67) (hn : adv c = n) :
    moveRightBody s = jumpTo n s := by
  subst hc hn
  rw [moveRightBody, if_pos hend]

theorem moveRightBody_within (h27 : s.cursor ≠ 0x27) (h67 : s.cursor ≠ 0x67) :
    moveRightBody s = commandThenCursor 0x14 (adv s.cursor) s := by
  rw [moveRightBody, if_neg (not_or.mpr ⟨h27, h67⟩)]
  rfl

theorem moveLeftBody_at_start {c n : Address} (hc : s.cursor = c) (hstart : c = 0x00 ∨ c = 0x40) (hn : ret c = n) :
    moveLeftBody s = jumpTo n s := by
  subst hc hn
  rw [moveLeftBody, if_pos hstart]

theorem moveLeftBody_within (h00 : s.cursor ≠ 0x00) (h40 : s.cursor ≠ 0x40) :
    moveLeftBody s = commandThenCursor 0x10 (ret s.cursor) s := by
  rw [moveLeftBody, if_neg (not_or.mpr ⟨h00, h40⟩)]
  rfl

theorem moveUpBody_row0 (h : s.cursor.toNat < 0x40) : moveUpBody s = .refused .moveUpOnRow0 := by
  rw [moveUpBody, if_pos h]

theorem moveUpBody_row1 (h : 0x40 ≤ s.cursor.toNat) : moveUpBody s = jumpTo (s.cursor - 0x40) s := by
  rw [moveUpBody, if_neg (by omega)]

theorem moveDownBody_row1 (h : 0x40 ≤ s.cursor.toNat) : moveDownBody s = .refused .moveDownOnRow1 := by
  rw [moveDownBody, if_pos h]

theorem moveDownBody_row0 (h : s.cursor.toNat < 0x40) : moveDownBody s = jumpTo (s.cursor + 0x40) s := by
  rw [moveDownBody, if_neg (by omega)]

end

/-! ## The statements -/

/-- Settles O25: both functions in numbers, from their value inside a row and at its ends. -/
theorem advanceAndRetreatFollowTheWrapTable : Obligations.AdvanceAndRetreatFollowTheWrapTable := by
  unfold Obligations.AdvanceAndRetreatFollowTheWrapTable
  exact fun c hc => ⟨toNat_adv c hc, toNat_ret c hc⟩

/-- Settles O27: the operand check, then the gate, then the jump to the address in numbers. -/
theorem setPositionSendsTheAddressAndMovesTheCursor : Obligations.SetPositionSendsTheAddressAndMovesTheCursor := by
  unfold Obligations.SetPositionSendsTheAddressAndMovesTheCursor
  intro s row column
  rw [exec_setPosition]
  refine ⟨fun h => ?illegal, fun hr hc hw => ?notReady, fun hr hc hs => ?ready⟩
  case illegal => exact complete_eq_of_raised (setPosition_illegal s (positionOperand_illegal h))
  case notReady =>
    rw [setPosition_legal s (positionOperand_legal hr hc)]
    exact complete_gate_not_ready _ hw
  case ready =>
    rw [setPosition_legal s (positionOperand_legal hr hc)]
    exact complete_jumpTo_ready hs rfl (toNat_rowColumnAddress hr hc)

/-- Settles O28: MOVE_RIGHT stopped at its gate, jumping from either row's last column, or shifting. -/
theorem moveRightShiftsOrJumps : Obligations.MoveRightShiftsOrJumps := by
  unfold Obligations.MoveRightShiftsOrJumps
  intro s
  rw [exec_moveRight]
  refine ⟨complete_gate_not_ready _, fun hs hc => ?row0, fun hs hc => ?row1, fun hs h27 h67 => ?within⟩
  case row0 => exact complete_jumpTo_ready hs (moveRightBody_at_end (n := 0x40) hc (.inl rfl) rfl) rfl
  case row1 => exact complete_jumpTo_ready hs (moveRightBody_at_end (n := 0x00) hc (.inr rfl) rfl) rfl
  case within => exact complete_commandThenCursor_ready hs (moveRightBody_within h27 h67)

/-- Settles O29: MOVE_LEFT stopped at its gate, jumping from either row's first column, or shifting. -/
theorem moveLeftShiftsOrJumps : Obligations.MoveLeftShiftsOrJumps := by
  unfold Obligations.MoveLeftShiftsOrJumps
  intro s
  rw [exec_moveLeft]
  refine ⟨complete_gate_not_ready _, fun hs hc => ?row0, fun hs hc => ?row1, fun hs h00 h40 => ?within⟩
  case row0 => exact complete_jumpTo_ready hs (moveLeftBody_at_start (n := 0x67) hc (.inl rfl) rfl) rfl
  case row1 => exact complete_jumpTo_ready hs (moveLeftBody_at_start (n := 0x27) hc (.inr rfl) rfl) rfl
  case within => exact complete_commandThenCursor_ready hs (moveLeftBody_within h00 h40)

/-- Settles O30: MOVE_UP stopped at its gate, refused on row 0, or jumping; on row 1 the subtraction is exact. -/
theorem moveUpChangesTheRow : Obligations.MoveUpChangesTheRow := by
  unfold Obligations.MoveUpChangesTheRow
  intro s
  rw [exec_moveUp]
  refine ⟨complete_gate_not_ready _, fun hw hrow => ?row0, fun hs hrow => ?row1⟩
  case row0 => exact complete_gate_refused hw (moveUpBody_row0 hrow)
  case row1 =>
    have hdiff : (s.cursor - 0x40).toNat = s.cursor.toNat - 0x40 := BitVec.toNat_sub_of_le hrow
    exact complete_jumpTo_ready hs (moveUpBody_row1 hrow) hdiff

/-- Settles O31: MOVE_DOWN stopped at its gate, refused on row 1, or jumping; on row 0 the sum fits in seven bits. -/
theorem moveDownChangesTheRow : Obligations.MoveDownChangesTheRow := by
  unfold Obligations.MoveDownChangesTheRow
  intro s
  rw [exec_moveDown]
  refine ⟨complete_gate_not_ready _, fun hw hrow => ?row1, fun hs hrow => ?row0⟩
  case row1 => exact complete_gate_refused hw (moveDownBody_row1 hrow)
  case row0 =>
    have hsum : (s.cursor + 0x40).toNat = s.cursor.toNat + 0x40 :=
      BitVec.toNat_add_of_lt (show s.cursor.toNat + 0x40 < 2 ^ 7 by omega)
    exact complete_jumpTo_ready hs (moveDownBody_row0 hrow) hsum

end Sys2Proof.Machine
end

section
/-! PROOFS. Initialisation: PINS_INIT (R180) and INIT (R181, R182). -/

namespace Sys2Proof.Machine

/-! ## What the two instructions run -/

theorem exec_pinsInit (s : State) : exec .pinsInit s = (pinsInit s).complete := by rfl

theorem exec_init (s : State) : exec .init s = (initSequence s).complete := by rfl

/-! ## PINS_INIT -/

/-- R18: the number of lines PINS_INIT binds. -/
theorem val_widthLines (w : TransferWidth) : (widthLines w).val = if w = .eight then 8 else 4 := by
  cases w <;> rfl

/-- D24: X on every pin. -/
theorem PinLevels.get_allUnknown (sig : Signal) : PinLevels.allUnknown.get sig = .unknown := by
  cases sig <;> rfl

/-! ## The parts of INIT on a ready block -/

/-- R182: the wake-up byte as a number. -/
theorem wakeOf_eq_ite (c : Settings) : wakeOf c = if c.dataTransBits = .eight then 0x30 else 0x20 := by
  rw [wakeOf]
  generalize c.dataTransBits = w
  cases w <;> rfl

theorem wakeUp_ready (s : State) (us : Nat) (h : RawReady s) :
    wakeUp us s = .done ((s.afterCommand (wakeOf s.settings)).afterWait us) :=
  sendCommandAndWait_ready s _ us h

theorem applySettings_ready (s : State) (command : Settings → Byte) (h : RawReady s) :
    applySettings command s = .done ((s.afterCommand (command s.settings)).afterWait tCmdUs) :=
  sendCommandAndWait_ready s _ tCmdUs h

/-! ## The whole sequence (R181) -/

/-- The opening wait and the eight commands of R181, each with its wait. -/
def State.afterInitCommands (s : State) : State :=
  s.afterWait tPwr
    |>.afterCommand (wakeOf s.settings) |>.afterWait tW1
    |>.afterCommand (wakeOf s.settings) |>.afterWait tW2
    |>.afterCommand (wakeOf s.settings) |>.afterWait tW3
    |>.afterCommand (functionSetOf s.settings) |>.afterWait tCmdUs
    |>.afterCommand clearDisplayByte |>.afterWait tLong
    |>.afterCommand returnHomeByte |>.afterWait tLong
    |>.afterCommand (entryModeOf s.settings) |>.afterWait tCmdUs
    |>.afterCommand (displayControlOf s.settings) |>.afterWait tCmdUs

/-- No command of the sequence changes what the next one needs or sends; that steps 5 and 6 home the cursor shows only
at the end. -/
theorem initSequence_ready (s : State) (h : RawReady s) :
    initSequence s = .done (s.afterInitCommands.setCursor 0x00).setWriteReady := by
  obtain ⟨hp, hb⟩ := h
  simp only [initSequence, emit_wait, wakeUp_ready, applySettings_ready, clearBody_ready, homeBody_ready,
    Flow.andThen_done, RawReady, State.afterWait_pinsReady, State.afterWait_boundData, State.afterWait_settings,
    State.afterCommand_pinsReady, State.afterCommand_boundData, State.afterCommand_settings,
    State.setCursor_pinsReady, State.setCursor_boundData, State.setCursor_settings, State.setCursor_afterCommand,
    State.setCursor_afterWait, State.setCursor_setCursor, hp, hb, and_self, State.afterInitCommands]

/-- The first wake-up is the first thing that can fail, after the opening wait. -/
theorem initSequence_not_ready (s : State) (hp : s.pinsReady = false) :
    initSequence s = .raised .invalidState (s.afterWait tPwr) := by
  have first : wakeUp tW1 (s.afterWait tPwr) = .raised .invalidState (s.afterWait tPwr) :=
    sendCommandAndWait_not_ready (s.afterWait tPwr) _ tW1 hp
  rw [initSequence, emit_wait, first, Flow.andThen_raised]

/-! ## The statements -/

/-- Settles O33: INIT stopped at its first wake-up, or its whole sequence run. -/
theorem initRunsTheTimedSequence : Obligations.InitRunsTheTimedSequence := by
  unfold Obligations.InitRunsTheTimedSequence
  intro s
  rw [exec_init]
  refine ⟨fun hp => ?notReady, fun hready => ?ready⟩
  case notReady => exact complete_eq_of_raised (initSequence_not_ready s hp)
  case ready =>
    rw [complete_eq_of_done (initSequence_ready s hready), State.afterInitCommands, wakeOf_eq_ite]
    rfl

/-- Settles O32: PINS_INIT only writes the bound lines, the levels and its flag. -/
theorem pinsInitBindsTheWidthAndForgetsLevels : Obligations.PinsInitBindsTheWidthAndForgetsLevels := by
  unfold Obligations.PinsInitBindsTheWidthAndForgetsLevels
  intro s
  rw [exec_pinsInit]
  exact ⟨(s.setBoundData (widthLines s.settings.dataTransBits)).forgetLevels.setPinsReady, complete_eq_of_done rfl, rfl,
    val_widthLines _, PinLevels.get_allUnknown⟩

end Sys2Proof.Machine
end

section
/-! PROOFS. CLEAR_LINE (R190): a run of `adv` along one row (R161), and the forty spaces. -/

namespace Sys2Proof.Machine

/-! ## What the instruction runs -/

theorem exec_clearLine (row : Byte) (s : State) : exec (.clearLine row) s = (clearLine row s).complete := by rfl

/-! ## `adv` along a row (R160, R161) -/

/-- Fewer than forty advances from the first column of a row stay on that row. -/
theorem toNat_iterate_adv_within_row {a : Address} (ha : a = 0x00 ∨ a = 0x40) {n : Nat} (hn : n ≤ 39) :
    (adv^[n] a).toNat = a.toNat + n := by
  induction n with
  | zero => rfl
  | succ n ih =>
    have hcol := ih (by omega)
    rw [Function.iterate_succ_apply']
    generalize adv^[n] a = c at hcol ⊢
    have hstart : a.toNat = 0x00 ∨ a.toNat = 0x40 := ha.imp (congrArg BitVec.toNat) (congrArg BitVec.toNat)
    have hV : inRows c = true := (inRows_iff c).mpr (by omega)
    have h27 : c ≠ 0x27 := by bv_omega
    have h67 : c ≠ 0x67 := by bv_omega
    rw [toNat_adv c hV, if_neg h27, if_neg h67, hcol, Nat.add_assoc]

/-- The fortieth advance is the one that leaves the row. -/
theorem iterate_adv_forty_row0 : adv^[40] 0x00 = 0x40 := by
  have last : adv^[39] 0x00 = 0x27 := BitVec.eq_of_toNat_eq (toNat_iterate_adv_within_row (.inl rfl) le_rfl)
  rw [Function.iterate_succ_apply', last]
  rfl

theorem iterate_adv_forty_row1 : adv^[40] 0x40 = 0x00 := by
  have last : adv^[39] 0x40 = 0x67 := BitVec.eq_of_toNat_eq (toNat_iterate_adv_within_row (.inr rfl) le_rfl)
  rw [Function.iterate_succ_apply', last]
  rfl

/-! ## The row operand (R72) -/

theorem rowOperand_illegal {row : Byte} (h : 1 < row.toNat) : rowOperand row = none := by
  rw [rowOperand, if_neg (by omega)]

theorem rowOperand_legal {row : Byte} (h : row.toNat ≤ 1) : rowOperand row = some (rowColumnAddress row 0) := by
  rw [rowOperand, if_pos h]

/-- R72: the two legal rows. -/
theorem row_eq_zero_or_one {row : Byte} (h : row.toNat ≤ 1) : row = 0 ∨ row = 1 := by
  bv_omega

/-! ## CLEAR_LINE on a ready block -/

/-- R190: the address-set of the row's first address, its wait and the spaces, with the cursor where forty advances from
there end. -/
theorem exec_clearLine_ready {row command : Byte} {first last : Address} {s : State} (hs : CookedReady s)
    (hrow : rowOperand row = some first) (hcommand : ddramByte first = command) (hlast : adv^[40] first = last) :
    exec (.clearLine row) s = .next ({ s with
      trace := s.trace ++ commandOnBus s.settings.dataTransBits command ++ [Event.wait tCmdUs] ++
        (List.replicate 40 (dataOnBus s.settings.dataTransBits 0x20)).flatten
      level := ((s.afterCommand command).afterData 0x20).level
      cursor := last }.afterResult .ok) := by
  subst hcommand hlast
  have hjump : RawReady (((s.afterCommand (ddramByte first)).afterWait tCmdUs).setCursor first) := hs.2
  rw [exec_clearLine, complete_eq_of_done ((clearLine_ready s row first hrow hs).trans (sendSpaces_ready 39 _ hjump))]
  rfl

/-! ## The statement -/

/-- Settles O35: CLEAR_LINE stopped at the operand check or at its gate, or run on either row. -/
theorem clearLineWritesFortySpaces : Obligations.ClearLineWritesFortySpaces := by
  unfold Obligations.ClearLineWritesFortySpaces
  intro s row
  refine ⟨fun h => ?illegal, fun hr hw => ?notReady, fun hr hs => ?ready⟩
  case illegal =>
    rw [exec_clearLine]
    exact complete_eq_of_raised (clearLine_bad_row s row (rowOperand_illegal h))
  case notReady =>
    rw [exec_clearLine]
    exact complete_eq_of_raised (clearLine_not_ready s row _ (rowOperand_legal hr) hw)
  case ready =>
    rcases row_eq_zero_or_one hr with rfl | rfl
    · exact exec_clearLine_ready hs rfl rfl iterate_adv_forty_row0
    · exact exec_clearLine_ready hs rfl rfl iterate_adv_forty_row1

end Sys2Proof.Machine
end

section
/-! PROOFS. The result port: the codes of R203. -/

namespace Sys2Proof.Machine

@[simp] theorem Result.code_ok : Result.code .ok = 0 := rfl

@[simp] theorem Result.code_invalidArgument : Result.code .invalidArgument = 1 := rfl

@[simp] theorem Result.code_invalidState : Result.code .invalidState = 2 := rfl

/-- R203: the fourth value of the 2-bit field is the code of no result. -/
theorem Result.code_ne_three (r : Result) : r.code ≠ 3 := by
  cases r with
  | ok => rw [Result.code_ok]; decide
  | invalidArgument => rw [Result.code_invalidArgument]; decide
  | invalidState => rw [Result.code_invalidState]; decide

/-- Settles O12: the three codes as R203 lists them, and none of them is 3. -/
theorem resultCodesAreTheListedOnes : Obligations.ResultCodesAreTheListedOnes := by
  unfold Obligations.ResultCodesAreTheListedOnes
  exact ⟨Result.code_ok, Result.code_invalidArgument, Result.code_invalidState, Result.code_ne_three⟩

end Sys2Proof.Machine
end

section
/-! PROOFS. The encodings (R70 to R88): decoding what was encoded, encoding what was decoded, the fields of a request
word, and the bytes of a settings record. -/

namespace Sys2Proof.Machine

/-! ## Wire bytes, decoded (R75 to R82) -/

theorem decodeWireCommand_entryModeByte (id s : Bool) :
    decodeWireCommand (entryModeByte id s) = .ok (.entryModeSet id s) := by
  cases id <;> cases s <;> rfl

theorem decodeWireCommand_displayControlByte (d c b : Bool) :
    decodeWireCommand (displayControlByte d c b) = .ok (.displayControl d c b) := by
  cases d <;> cases c <;> cases b <;> rfl

theorem decodeWireCommand_cursorShiftByte (sc rl : Bool) :
    decodeWireCommand (cursorShiftByte sc rl) = .ok (shiftInstr sc rl) := by
  cases sc <;> cases rl <;> rfl

theorem decodeWireCommand_functionSetByte (dl n f : Bool) :
    decodeWireCommand (functionSetByte dl n f) = .ok (.functionSet dl n f) := by
  cases dl <;> cases n <;> cases f <;> rfl

/-- R81: the class bit stands above the six bits of the address. -/
theorem extractLsb'_cgramByte (a : BitVec 6) : (cgramByte a).extractLsb' 0 6 = a := by
  apply BitVec.eq_of_getLsbD_eq
  intro i hi
  interval_cases i <;> simp [cgramByte]

theorem decodeWireCommand_cgramByte (a : BitVec 6) : decodeWireCommand (cgramByte a) = .ok (.setCgramAddr a) := by
  have h7 : (cgramByte a).getLsbD 7 = false := by simp [cgramByte]
  have h6 : (cgramByte a).getLsbD 6 = true := by simp [cgramByte]
  simp only [decodeWireCommand, h7, h6, extractLsb'_cgramByte, Bool.false_eq_true, if_true, if_false]

/-- R82: the class bit stands above the seven bits of the address. -/
theorem extractLsb'_ddramByte (a : Address) : (ddramByte a).extractLsb' 0 7 = a := by
  apply BitVec.eq_of_getLsbD_eq
  intro i hi
  interval_cases i <;> simp [ddramByte]

theorem decodeWireCommand_ddramByte (a : Address) : decodeWireCommand (ddramByte a) = .ok (.setDdramAddr a) := by
  have h7 : (ddramByte a).getLsbD 7 = true := by simp [ddramByte]
  simp only [decodeWireCommand, h7, extractLsb'_ddramByte, if_true]

/-- Settles O1: a wire byte has its class's bits and its fields in the rest; in a HOST word the selector picks the arm
and the operands are read back from their fields. -/
theorem decodeOfEncodeIsTheInstruction : Obligations.DecodeOfEncodeIsTheInstruction := by
  unfold Obligations.DecodeOfEncodeIsTheInstruction
  intro i
  cases i
  case clearDisplay => rfl
  case returnHome => rfl
  case entryModeSet id s => exact decodeWireCommand_entryModeByte id s
  case displayControl d c b => exact decodeWireCommand_displayControlByte d c b
  case cursorLeft => exact decodeWireCommand_cursorShiftByte false false
  case cursorRight => exact decodeWireCommand_cursorShiftByte false true
  case displayLeft => exact decodeWireCommand_cursorShiftByte true false
  case displayRight => exact decodeWireCommand_cursorShiftByte true true
  case functionSet dl n f => exact decodeWireCommand_functionSetByte dl n f
  case setCgramAddr a => exact decodeWireCommand_cgramByte a
  case setDdramAddr a => exact decodeWireCommand_ddramByte a
  case dataByte v => rfl
  all_goals simp [encode, decode, decodeHost]

/-! ## Decoded wire bytes, encoded again -/

/-- A byte is its eight bits. -/
theorem byte_eq_of_bits {a b : Byte} (h : ∀ i : Fin 8, a.getLsbD i.val = b.getLsbD i.val) : a = b :=
  BitVec.eq_of_getLsbD_eq fun i hi => h ⟨i, hi⟩

theorem getLsbD_bitByte (x : Bool) (i : Nat) : (bitByte x).getLsbD i = (decide (i = 0) && x) := by
  cases x <;> simp [bitByte]

theorem encode_shiftInstr (sc rl : Bool) : encode (shiftInstr sc rl) = .wireCommand (cursorShiftByte sc rl) := by
  cases sc <;> cases rl <;> rfl

/-- Settles O2, branch by branch of R74 (the shift bytes are the fourth): the highest set bit, the fixed bits of the class
and the fields are all eight bits of the byte. -/
theorem encodeOfDecodedWireByteIsTheByte : Obligations.EncodeOfDecodedWireByteIsTheByte := by
  unfold Obligations.EncodeOfDecodedWireByteIsTheByte
  intro b i h
  simp only [decode, decodeWireCommand, Bool.or_eq_true] at h
  split_ifs at h with h7 h6 h5 low h4 low h3 h2 h1 h0 h0
  all_goals simp only [not_or, Bool.not_eq_true, Except.ok.injEq] at *
  all_goals subst h
  on_goal 4 => rw [encode_shiftInstr]
  all_goals
    refine congrArg Request.wireCommand (byte_eq_of_bits fun k => ?_)
    fin_cases k <;> simp [ddramByte, cgramByte, functionSetByte, cursorShiftByte, displayControlByte, entryModeByte,
      returnHomeByte, clearDisplayByte, getLsbD_bitByte, *, -BitVec.getLsbD_eq_getElem]

/-! ## The fields of a request word (R70, R71) -/

/-- R70: the three fields do not overlap, so the OR of R88 is a sum. -/
theorem toNat_hostWord (op : BitVec 5) (a b : Byte) :
    (hostWord op a b).toNat = op.toNat * 2 ^ 16 + a.toNat * 2 ^ 8 + b.toNat := by
  have hop : (op.setWidth 21 <<< 16).toNat = op.toNat <<< 16 := by
    simp [BitVec.toNat_shiftLeft, Nat.shiftLeft_eq]; omega
  have ha : (a.setWidth 21 <<< 8).toNat = a.toNat <<< 8 := by
    simp [BitVec.toNat_shiftLeft, Nat.shiftLeft_eq]; omega
  have hb : (b.setWidth 21).toNat = b.toNat := by simp; omega
  have low : a.toNat <<< 8 + b.toNat < 2 ^ 16 := by rw [Nat.shiftLeft_eq]; omega
  rw [hostWord, BitVec.toNat_or, BitVec.toNat_or, hop, ha, hb, Nat.or_assoc,
    ← Nat.shiftLeft_add_eq_or_of_lt b.isLt, ← Nat.shiftLeft_add_eq_or_of_lt low, Nat.shiftLeft_eq, Nat.shiftLeft_eq,
    Nat.add_assoc]

theorem hostWord_fields (w : HostWord) : hostWord (opField w) (aField w) (bField w) = w := by
  have hop : (opField w).toNat = w.toNat / 2 ^ 16 := toNat_opField w
  have ha : (aField w).toNat = w.toNat / 2 ^ 8 % 2 ^ 8 := by
    simp only [aField, BitVec.extractLsb'_toNat, Nat.shiftRight_eq_div_pow]
  have hb : (bField w).toNat = w.toNat % 2 ^ 8 := by
    simp only [bField, BitVec.extractLsb'_toNat, Nat.shiftRight_zero]
  apply BitVec.eq_of_toNat_eq
  rw [toNat_hostWord, hop, ha, hb]
  omega

/-- Settles O3: the sum of the fields, and the division of a word into them. -/
theorem requestWordIsMadeOfItsFields : Obligations.RequestWordIsMadeOfItsFields := by
  unfold Obligations.RequestWordIsMadeOfItsFields
  exact ⟨toNat_hostWord, hostWord_fields⟩

/-- R71: the selectors of the table's rows with a first operand. -/
theorem usesFirst_iff (op : BitVec 5) :
    usesFirst op = true ↔ op.toNat ≤ 0x03 ∨ (0x06 ≤ op.toNat ∧ op.toNat ≤ 0x0E) ∨ op.toNat = 0x15 := by
  revert op
  decide

/-- R71: the selectors of the table's rows with a second operand. -/
theorem usesSecond_iff (op : BitVec 5) : usesSecond op = true ↔ op.toNat = 0x00 ∨ op.toNat = 0x0E := by
  revert op
  decide

/-- Words with the same selector and the same used fields decode alike. -/
theorem decodeHost_congr {w w' : HostWord} (hop : opField w = opField w')
    (ha : usesFirst (opField w) = true → aField w = aField w')
    (hb : usesSecond (opField w) = true → bField w = bField w') : decodeHost w = decodeHost w' := by
  by_cases reserved : 0x16 ≤ (opField w).toNat
  · rw [decodeHost_of_reserved w reserved, decodeHost_of_reserved w' (hop ▸ reserved), hop]
  · rw [usesFirst_iff] at ha
    rw [usesSecond_iff] at hb
    unfold decodeHost
    rw [← hop]
    generalize (opField w).toNat = n at *
    interval_cases n
    all_goals simp only [Nat.reduceLeDiff, Nat.reduceEqDiff, and_self, or_self, or_false, or_true, false_and,
      and_false, forall_const] at ha hb
    all_goals simp only [ha, hb]

/-- Settles O4: the two words have the same selector, and the field they differ in is one the selector does not use. -/
theorem ignoredOperandFieldsDoNotMatter : Obligations.IgnoredOperandFieldsDoNotMatter := by
  unfold Obligations.IgnoredOperandFieldsDoNotMatter
  refine ⟨fun op a a' b h => decodeHost_congr ?_ ?_ ?_, fun op a b b' h => decodeHost_congr ?_ ?_ ?_⟩ <;> simp [h]

/-! ## Written-out words and bytes -/

/-- Settles O5, by running the decoder on the twelve words. -/
theorem writtenOutWordsDecode : Obligations.WrittenOutWordsDecode := by
  unfold Obligations.WrittenOutWordsDecode
  decide

/-- Settles O6, by running the decoder on the 256 bytes. -/
theorem bytesInNoClassAreTheListedOnes : Obligations.BytesInNoClassAreTheListedOnes := by
  unfold Obligations.BytesInNoClassAreTheListedOnes
  decide

/-! ## The bytes of a settings record (R11 to R13, R77, R78, R80, R182) -/

/-- Settles O7: each byte is a sum of its fields, too small to wrap. -/
theorem settingsEncodersGiveTheTabledBytes : Obligations.SettingsEncodersGiveTheTabledBytes := by
  unfold Obligations.SettingsEncodersGiveTheTabledBytes
  intro c
  have bit (b : Bool) : b.toNat ≤ 1 := b.toNat_le
  rw [entryModeOf_eq_sum, displayControlOf_eq_sum, functionSetOf_eq_sum, wakeOf_eq_ite]
  refine ⟨?_, ?_, ?_, ?_⟩
  · rw [BitVec.toNat_ofNat, Nat.mod_eq_of_lt]
    have := bit c.acAutoIncrease; have := bit c.displayFollowCursor
    omega
  · rw [BitVec.toNat_ofNat, Nat.mod_eq_of_lt]
    have := bit c.displayOn; have := bit c.cursorVisible; have := bit c.cursorBlink
    omega
  · rw [BitVec.toNat_ofNat, Nat.mod_eq_of_lt]
    split_ifs <;> decide
  · split_ifs <;> rfl

/-- Settles O13: the fields stand in the command byte as in the register, for every value of them. -/
theorem controlRegistersAreTheCommandFields : Obligations.ControlRegistersAreTheCommandFields := by
  unfold Obligations.ControlRegistersAreTheCommandFields
  intro c
  refine ⟨?entryMode, ?displayCtrl, ?functionSet⟩
  case entryMode =>
    rw [entryModeOf, entryModeRegister]
    generalize c.acAutoIncrease = id, c.displayFollowCursor = sh
    cases id <;> cases sh <;> rfl
  case displayCtrl =>
    rw [displayControlOf, displayCtrlRegister]
    generalize c.displayOn = d, c.cursorVisible = v, c.cursorBlink = b
    cases d <;> cases v <;> cases b <;> rfl
  case functionSet =>
    rw [functionSetOf, functionSetRegister]
    generalize widthBit c.dataTransBits = w, linesBit c.displayLines = n, fontBit c.dotMatrix = f
    cases w <;> cases n <;> cases f <;> rfl

end Sys2Proof.Machine
end

section
/-! PROOFS. Steps (R7, R21, R73), reset (R24), and the invariants of every reachable state (R18, R25, R48). -/

namespace Sys2Proof.Machine

/-! ## One step -/

theorem runRequest_of_decode_ok {r : Request} {i : Instr} (h : decode r = .ok i) (s : State) :
    runRequest r s = exec i s := by
  simp only [runRequest, h]

/-- U5: a wire byte of no class is sent unchanged (log entry 10). -/
theorem runRequest_of_unclassed {r : Request} {b : Byte} (h : decode r = .error (.unclassedWireByte b)) (s : State) :
    runRequest r s = exec (.sendCommand b) s := by
  simp only [runRequest, h]
  rfl

/-- What a request can do: it is an instruction, or it only answers InvalidArgument. -/
theorem runRequest_cases (r : Request) (s : State) :
    (∃ i, runRequest r s = exec i s) ∨ runRequest r s = .next (s.report .invalidArgument) := by
  cases h : decode r with
  | ok i => exact .inl ⟨i, runRequest_of_decode_ok h s⟩
  | error e =>
    cases e with
    | reservedSelector op => exact .inr (runRequest_of_reserved h s)
    | unclassedWireByte b => exact .inl ⟨_, runRequest_of_unclassed h s⟩

/-- Settles O8: the step takes the request, and running it is executing what it decodes to. -/
theorem stepRunsTheDecodedInstruction : Obligations.StepRunsTheDecodedInstruction := by
  unfold Obligations.StepRunsTheDecodedInstruction
  intro s r rest i hreq hdec
  rw [step_of_requests_cons hreq, runRequest_of_decode_ok hdec]

theorem step_idle {s : State} (h : s.requests = []) : step s = .next s := by
  simp only [step, h]

/-- Settles O10: the idle step, and the step on a byte that the decoder rejects by name. -/
theorem stepWithoutAnInstruction : Obligations.StepWithoutAnInstruction := by
  unfold Obligations.StepWithoutAnInstruction
  refine ⟨fun s hreq => step_idle hreq, fun s b rest hreq hb => ?_⟩
  have hdec : decode (.wireCommand b) = .error (.unclassedWireByte b) :=
    (bytesInNoClassAreTheListedOnes b).mpr hb
  rw [step_of_requests_cons hreq, runRequest_of_unclassed hdec]

/-! ## Reset -/

/-- Settles O11: every field is written out in `State.resetWith`. -/
theorem resetStateIsAsTheSpecSays : Obligations.ResetStateIsAsTheSpecSays := by
  unfold Obligations.ResetStateIsAsTheSpecSays
  exact fun c => ⟨rfl, rfl, rfl, rfl, rfl, rfl, PinLevels.get_allUnknown, rfl, rfl, rfl⟩

/-- Settles O38: after reset no flag is set, no line is bound, no level is known and the trace is empty. -/
theorem resetHasTheInvariants : Obligations.ResetHasTheInvariants := by
  unfold Obligations.ResetHasTheInvariants
  exact fun c =>
    { readReady_false := rfl
      writeReady_pinsReady := nofun
      pinsReady_bound := nofun
      bound_legal := .inl rfl
      cursor_inRows := rfl
      rw_not_high := nofun
      e_not_high := nofun
      trace_write_only := List.not_mem_nil }

/-! ## What sending keeps of the cursor and the levels (R25, R48) -/

/-- The part of the invariants that sending writes: the cursor is in V, and RW and E are not left high. -/
structure CursorAndLinesOk (s : State) : Prop where
  cursor_inRows : inRows s.cursor = true
  rw_not_high : s.level.rw ≠ .high
  e_not_high : s.level.e ≠ .high

theorem cursorAndLinesOk_kept : Kept true CursorAndLinesOk where
  transfer s v w h _ := by
    obtain ⟨-, hrw, he⟩ := drive_transfer v w s.level
    exact ⟨h.cursor_inRows, by rw [State.emit_level, hrw]; nofun, by rw [State.emit_level, he]; nofun⟩
  select s b h := { h with }
  wait s us h := { h with }
  cursor s c h hc := { h with cursor_inRows := hc rfl }
  inRows s h _ := h.cursor_inRows

/-- PINS_INIT forgets the levels; every other instruction sends or leaves them. -/
theorem CursorAndLinesOk.exec {i : Instr} {s t : State} (h : CursorAndLinesOk s) (he : exec i s = .next t) :
    CursorAndLinesOk t := by
  by_cases hp : i = .pinsInit
  · subst hp
    cases he
    exact ⟨h.cursor_inRows, nofun, nofun⟩
  · exact cursorAndLinesOk_kept.exec (fun _ _ h => { h with }) (fun _ h => { h with }) (fun _ h => { h with })
      (fun _ _ h => { h with }) hp h he

/-! ## Every instruction and every step keep the invariants -/

theorem widthLines_legal (w : TransferWidth) : widthLines w = 0 ∨ widthLines w = 4 ∨ widthLines w = 8 := by
  cases w with
  | four => exact .inr (.inl rfl)
  | eight => exact .inr (.inr rfl)

/-- The invariants read neither the requests nor the results. -/
theorem Invariant.report {s : State} (h : Invariant s) (r : Result) : Invariant (s.report r) :=
  { h with }

theorem Invariant.takeRequest {s : State} (h : Invariant s) : Invariant s.takeRequest :=
  { h with }

theorem exec_init_not_ready {s t : State} (hp : s.pinsReady = false) (he : exec .init s = .next t) :
    t = (s.afterWait tPwr).afterResult .invalidState := by
  rw [exec_init, complete_eq_of_raised (initSequence_not_ready s hp)] at he
  cases he
  rfl

/-- R25 item 2: INIT sets `write_ready`, and only after sending, which needs `pins_ready`. -/
theorem Invariant.writeReady_pinsReady_of_sending {i : Instr} {s u : State} {r : Result} {c : Settings} {m : Bool}
    (h : Invariant s) (he : Machine.exec i s = .next (u.report r)) (e : Effect m (i == .init) (s.setSettings c) u)
    (hw : u.writeReady = true) : u.pinsReady = true := by
  rw [e.pinsReady]
  rcases e.writeReady with same | ⟨isInit, -⟩
  · exact h.writeReady_pinsReady (same.symm.trans hw)
  · obtain rfl : i = .init := eq_of_beq isInit
    by_contra hp
    have stopped := exec_init_not_ready (s := s) (Bool.eq_false_of_not_eq_true hp) he
    have same := congrArg State.writeReady stopped
    exact hp (h.writeReady_pinsReady (same.symm.trans hw))

/-- Whatever an instruction does, it keeps the invariants: it sends, or is PINS_INIT, or is SET_DATA_TRANS_BITS with an
illegal or a legal operand. -/
theorem Invariant.exec {i : Instr} {s t : State} (h : Invariant s) (he : exec i s = .next t) : Invariant t := by
  have ok : CursorAndLinesOk t := CursorAndLinesOk.exec ⟨h.cursor_inRows, h.rw_not_high, h.e_not_high⟩ he
  rcases exec_cases he with ⟨-, hwidth, u, r, rfl, e⟩ | ⟨-, rfl⟩ | ⟨n, -, ⟨-, -, rfl⟩ | ⟨-, rfl⟩⟩
  case inl =>
    obtain ⟨es, writeOnly, htrace, -⟩ := e.emits
    exact { ok with
      readReady_false := e.readReady.trans h.readReady_false
      writeReady_pinsReady := h.writeReady_pinsReady_of_sending (u := u) he e
      pinsReady_bound := fun hp => by
        rw [State.report_boundData, State.report_settings, e.boundData, e.settings, State.setSettings_settings,
          storedSettings_width i _ hwidth]
        exact h.pinsReady_bound (e.pinsReady.symm.trans hp)
      bound_legal := by
        rw [State.report_boundData, e.boundData]
        exact h.bound_legal
      trace_write_only := by
        rw [State.report_trace, htrace, List.mem_append, not_or]
        exact ⟨h.trace_write_only, writeOnly⟩ }
  case inr.inl =>
    exact { ok, h with
      writeReady_pinsReady := fun _ => rfl
      pinsReady_bound := fun _ => rfl
      bound_legal := widthLines_legal _ }
  case inr.inr.inl => exact h.report _
  case inr.inr.inr =>
    exact { ok, h with
      readReady_false := rfl
      writeReady_pinsReady := nofun
      pinsReady_bound := nofun }

/-- Settles O37: a step is idle, executes an instruction, or only answers. -/
theorem stepKeepsTheInvariants : Obligations.StepKeepsTheInvariants := by
  unfold Obligations.StepKeepsTheInvariants
  intro s t h hstep
  unfold step at hstep
  split at hstep
  next => cases hstep; exact h
  next r _ _ =>
    rcases runRequest_cases r s.takeRequest with ⟨i, hrun⟩ | hrun
    · exact h.takeRequest.exec (hrun ▸ hstep)
    · rw [hrun] at hstep
      cases hstep
      exact h.takeRequest.report _

/-! ## Frames of every instruction, from what it can do (`exec_cases`) -/

/-- Settles O39: sending keeps the flags but for INIT's `write_ready`; PINS_INIT sets one flag; SET_DATA_TRANS_BITS with
a legal operand clears all three. -/
theorem readinessChangesOnlyWhereTheSpecSays : Obligations.ReadinessChangesOnlyWhereTheSpecSays := by
  unfold Obligations.ReadinessChangesOnlyWhereTheSpecSays
  intro i s t he
  rcases exec_cases he with ⟨-, -, u, r, rfl, e⟩ | ⟨rfl, rfl⟩ | ⟨n, rfl, ⟨-, -, rfl⟩ | ⟨hn, rfl⟩⟩
  case inl =>
    have hp : u.pinsReady = s.pinsReady := e.pinsReady
    have hr : u.readReady = s.readReady := e.readReady
    have hw : u.writeReady = s.writeReady ∨ (i = .init ∧ u.writeReady = true) := by
      simpa using e.writeReady
    simp only [State.report_pinsReady, State.report_writeReady, State.report_readReady, hp, hr]
    grind
  case inr.inl => simp
  case inr.inr.inl => simp
  case inr.inr.inr =>
    exact ⟨nofun, nofun, fun _ => rfl, fun _ => hn.imp (congrArg _) (congrArg _)⟩

/-- Settles O40: an instruction takes no request, adds its one result, and only adds to the trace; so does the step. -/
theorem eachRequestIsAnsweredOnce : Obligations.EachRequestIsAnsweredOnce := by
  unfold Obligations.EachRequestIsAnsweredOnce
  intro s t r rest hreq hstep
  rw [step_of_requests_cons hreq] at hstep
  rcases runRequest_cases r { s with requests := rest } with ⟨i, hrun⟩ | hrun
  · rw [hrun] at hstep
    rcases exec_cases hstep with ⟨-, -, u, x, rfl, e⟩ | ⟨-, rfl⟩ | ⟨n, -, ⟨-, -, rfl⟩ | ⟨-, rfl⟩⟩
    · obtain ⟨es, -, htrace, -⟩ := e.emits
      exact ⟨e.requests, ⟨x, by rw [State.report_results, e.results]; rfl⟩, es, htrace⟩
    · exact ⟨rfl, ⟨_, rfl⟩, [], (List.append_nil _).symm⟩
    · exact ⟨rfl, ⟨_, rfl⟩, [], (List.append_nil _).symm⟩
    · exact ⟨rfl, ⟨_, rfl⟩, [], (List.append_nil _).symm⟩
  · rw [hrun] at hstep
    cases hstep
    exact ⟨rfl, ⟨_, rfl⟩, [], (List.append_nil _).symm⟩

/-- R7, R19, R48: every instruction adds write-only events to the trace, and the levels follow them, except that
PINS_INIT forgets the levels. -/
theorem exec_emits {i : Instr} {s t : State} (he : exec i s = .next t) :
    ∃ es, WriteOnly es ∧ t.trace = s.trace ++ es ∧ (i ≠ .pinsInit → t.level = es.foldl PinLevels.drive s.level) := by
  rcases exec_cases he with ⟨-, -, u, r, rfl, e⟩ | ⟨rfl, rfl⟩ | ⟨n, rfl, ⟨-, -, rfl⟩ | ⟨-, rfl⟩⟩
  · obtain ⟨es, writeOnly, htrace, hlevel⟩ := e.emits
    exact ⟨es, writeOnly, htrace, fun _ => hlevel⟩
  · exact ⟨[], List.not_mem_nil, (List.append_nil _).symm, fun h => absurd rfl h⟩
  · exact ⟨[], List.not_mem_nil, (List.append_nil _).symm, fun _ => rfl⟩
  · exact ⟨[], List.not_mem_nil, (List.append_nil _).symm, fun _ => rfl⟩

/-- Settles O41: the events an instruction adds are write-only. -/
theorem noInstructionRaisesRW : Obligations.NoInstructionRaisesRW := by
  unfold Obligations.NoInstructionRaisesRW
  intro i s t he
  obtain ⟨es, writeOnly, htrace, -⟩ := exec_emits he
  exact ⟨es, htrace, writeOnly⟩

/-- Settles O42: the levels follow the events an instruction adds. -/
theorem levelsFollowTheEvents : Obligations.LevelsFollowTheEvents := by
  unfold Obligations.LevelsFollowTheEvents
  intro i s t he hp
  obtain ⟨es, -, htrace, hlevel⟩ := exec_emits he
  exact ⟨es, htrace, hlevel hp⟩

/-- Settles O43: an instruction that sends starts from the state with its operand stored; PINS_INIT stores none. -/
theorem settingsFrame : Obligations.SettingsFrame := by
  unfold Obligations.SettingsFrame
  intro i s t he
  rcases exec_cases he with ⟨-, -, u, r, rfl, e⟩ | ⟨rfl, rfl⟩ | ⟨n, rfl, ⟨h4, h8, rfl⟩ | ⟨-, rfl⟩⟩
  · exact e.settings
  · rfl
  · rw [State.report_settings, storedSettings, if_neg h4, if_neg h8]
  · rfl

/-- Settles O44: sending writes the cursor only for the listed instructions, and never the number of bound lines. -/
theorem cursorAndBoundLinesFrame : Obligations.CursorAndBoundLinesFrame := by
  unfold Obligations.CursorAndBoundLinesFrame
  intro i s t he
  rcases exec_cases he with ⟨-, -, u, r, rfl, e⟩ | ⟨rfl, rfl⟩ | ⟨n, rfl, ⟨-, -, rfl⟩ | ⟨-, rfl⟩⟩
  · exact ⟨e.cursor, fun _ => e.boundData⟩
  · exact ⟨fun _ => rfl, fun h => absurd rfl h⟩
  · exact ⟨fun _ => rfl, fun _ => rfl⟩
  · exact ⟨fun _ => rfl, fun _ => rfl⟩

/-! ## What the pins keep (R45, R117, R138, R180) -/

/-- R117: a transfer leaves RS alone. -/
theorem ends_sendBits_rs (v : Byte) (w : Nat) (s : State) : Ends (fun t => t.level.rs = s.level.rs) (sendBits v w s) :=
  ends_sendBits (fun t v w h _ => ((drive_transfer v w t.level).1).trans h) v w s rfl

theorem ends_sendByte_rs (v : Byte) (s : State) : Ends (fun t => t.level.rs = s.level.rs) (sendByte v s) :=
  ends_sendByte (fun t v w h _ => ((drive_transfer v w t.level).1).trans h) v s rfl

/-- Four lines are bound, and D0 to D3 have the levels `l` gives them. -/
structure LowLinesKept (l : PinLevels) (s : State) : Prop where
  bound : s.boundData = 4
  d0 : s.level.d0 = l.d0
  d1 : s.level.d1 = l.d1
  d2 : s.level.d2 = l.d2
  d3 : s.level.d3 = l.d3

/-- R45: four bound lines are D4 to D7. -/
theorem lowLinesKept_kept (l : PinLevels) : Kept false (LowLinesKept l) where
  transfer s v w h hw := by
    obtain rfl : w = 4 := by rw [← hw, h.bound]; rfl
    exact { h with }
  select s b h := { h with }
  wait s us h := { h with }
  cursor s c h _ := { h with }
  inRows s h := nofun

theorem LowLinesKept.exec {l : PinLevels} {i : Instr} {s t : State} (h : LowLinesKept l s) (hp : i ≠ .pinsInit)
    (he : exec i s = .next t) : LowLinesKept l t :=
  (lowLinesKept_kept l).exec (fun _ _ h => { h with }) (fun _ h => { h with }) (fun _ h => { h with })
    (fun _ _ h => { h with }) hp h he

/-- R138: SET_DATA_TRANS_BITS sends nothing. -/
theorem setDataTransBits_keeps_pins {n : Byte} {s t : State} (he : exec (.setDataTransBits n) s = .next t) :
    t.trace = s.trace ∧ t.level = s.level := by
  rcases exec_cases he with ⟨-, hn, -⟩ | ⟨h, -⟩ | ⟨n, -, ⟨-, -, rfl⟩ | ⟨-, rfl⟩⟩
  · exact absurd rfl (hn n)
  · cases h
  · exact ⟨rfl, rfl⟩
  · exact ⟨rfl, rfl⟩

/-- Settles O45, clause by clause. -/
theorem pinsFrame : Obligations.PinsFrame := by
  unfold Obligations.PinsFrame
  intro i s t he
  refine ⟨?silent, ?levels, ?select, ?lowLines⟩
  case silent =>
    rintro (rfl | ⟨n, rfl⟩)
    · cases he; rfl
    · exact (setDataTransBits_keeps_pins he).1
  case levels =>
    rintro ⟨n, rfl⟩
    exact (setDataTransBits_keeps_pins he).2
  case select =>
    rintro (⟨v, w, rfl⟩ | ⟨v, rfl⟩)
    · exact (ends_sendBits_rs v w.toNat s).complete (fun _ _ h => h) he
    · exact (ends_sendByte_rs v s).complete (fun _ _ h => h) he
  case lowLines =>
    intro hready hfour hp
    have hbound : s.boundData = 4 := by rw [hready.2, hfour]; rfl
    have kept : LowLinesKept s.level t := LowLinesKept.exec ⟨hbound, rfl, rfl, rfl, rfl⟩ hp he
    exact ⟨kept.d0, kept.d1, kept.d2, kept.d3⟩

end Sys2Proof.Machine
end

section
/-! PROOFS. The shapes an instruction can have: a command or a data byte sent raw, a transfer, a gated operation (R116),
INIT, PINS_INIT, SET_DATA_TRANS_BITS. What holds of every instruction is proved by these eight. -/

namespace Sys2Proof.Machine

/-! ## Raw bytes: SEND_COMMAND, SEND_DATA and the WIRE rows -/

/-- R74, R113: the instructions that send one command byte raw, with the byte. -/
inductive SendsCommand : Instr → Byte → Prop
  | sendCommand (v : Byte) : SendsCommand (.sendCommand v) v
  | clearDisplay : SendsCommand .clearDisplay clearDisplayByte
  | returnHome : SendsCommand .returnHome returnHomeByte
  | entryModeSet (id sh : Bool) : SendsCommand (.entryModeSet id sh) (entryModeByte id sh)
  | displayControl (d c b : Bool) : SendsCommand (.displayControl d c b) (displayControlByte d c b)
  | cursorLeft : SendsCommand .cursorLeft (cursorShiftByte false false)
  | cursorRight : SendsCommand .cursorRight (cursorShiftByte false true)
  | displayLeft : SendsCommand .displayLeft (cursorShiftByte true false)
  | displayRight : SendsCommand .displayRight (cursorShiftByte true true)
  | functionSet (dl n f : Bool) : SendsCommand (.functionSet dl n f) (functionSetByte dl n f)
  | setCgramAddr (a : BitVec 6) : SendsCommand (.setCgramAddr a) (cgramByte a)
  | setDdramAddr (a : Address) : SendsCommand (.setDdramAddr a) (ddramByte a)

/-- R83, R114: the instructions that send one data byte. -/
inductive SendsData : Instr → Byte → Prop
  | sendData (v : Byte) : SendsData (.sendData v) v
  | dataByte (v : Byte) : SendsData (.dataByte v) v

theorem SendsCommand.exec_eq {i : Instr} {v : Byte} (h : SendsCommand i v) (s : State) :
    exec i s = (Machine.sendCommand v s).complete := by
  cases h <;> rfl

theorem SendsData.exec_eq {i : Instr} {v : Byte} (h : SendsData i v) (s : State) :
    exec i s = (Machine.sendData v s).complete := by
  cases h <;> rfl

section
variable {i : Instr} {v : Byte} {s : State}

theorem SendsCommand.exec_ready (h : SendsCommand i v) (hs : RawReady s) :
    exec i s = .next ((s.afterCommand v).afterResult .ok) := by
  rw [h.exec_eq, complete_eq_of_done (sendCommand_ready s v hs)]

theorem SendsCommand.exec_not_ready (h : SendsCommand i v) (hp : s.pinsReady = false) :
    exec i s = .next (s.afterResult .invalidState) := by
  rw [h.exec_eq, complete_eq_of_raised (sendCommand_not_ready s v hp), ErrorKind.result]

theorem SendsData.exec_ready (h : SendsData i v) (hs : RawReady s) :
    exec i s = .next (((s.afterData v).setCursor (adv s.cursor)).afterResult .ok) := by
  rw [h.exec_eq, complete_eq_of_done (sendData_ready s v hs)]

theorem SendsData.exec_not_ready (h : SendsData i v) (hp : s.pinsReady = false) :
    exec i s = .next (s.afterResult .invalidState) := by
  rw [h.exec_eq, complete_eq_of_raised (sendData_not_ready s v hp), ErrorKind.result]

end

/-! ## The bytes of the WIRE rows as numbers (R77 to R81) -/

theorem entryModeByte_eq_sum (id sh : Bool) :
    entryModeByte id sh = BitVec.ofNat 8 (0x04 + 2 * id.toNat + sh.toNat) := by
  cases id <;> cases sh <;> rfl

theorem displayControlByte_eq_sum (d c b : Bool) :
    displayControlByte d c b = BitVec.ofNat 8 (0x08 + 4 * d.toNat + 2 * c.toNat + b.toNat) := by
  cases d <;> cases c <;> cases b <;> rfl

theorem functionSetByte_eq_sum (l n f : Bool) :
    functionSetByte l n f = BitVec.ofNat 8 (0x20 + 16 * l.toNat + 8 * n.toNat + 4 * f.toNat) := by
  cases l <;> cases n <;> cases f <;> rfl

/-- R81: an address has six bits, so OR-ing in the class bit is a sum. -/
theorem cgramByte_eq_sum (a : BitVec 6) : cgramByte a = BitVec.ofNat 8 (0x40 + a.toNat) := by
  have hsum : 0x40 ||| a.toNat = 0x40 + a.toNat := (Nat.two_pow_add_eq_or_of_lt a.isLt 1).symm
  apply BitVec.eq_of_toNat_eq
  rw [cgramByte, BitVec.toNat_or, BitVec.toNat_setWidth_of_le (by decide), BitVec.toNat_ofNat,
    Nat.mod_eq_of_lt (by omega)]
  exact hsum

/-- Settles O18: each row sends its byte, and R75 to R83 give the byte as a number. -/
theorem wireRowsSendTheirByte : Obligations.WireRowsSendTheirByte := by
  unfold Obligations.WireRowsSendTheirByte
  intro s
  refine ⟨fun hs => ⟨?_, ?_, fun id sh => ?_, fun d c b => ?_, ?_, ?_, ?_, ?_, fun l n f => ?_, fun a => ?_,
    fun a => ?_, fun v => ?_⟩, fun hp id sh d c b l n f a6 a7 v => ?notReady⟩
  case notReady =>
    simp only [List.forall_mem_cons]
    exact ⟨SendsCommand.clearDisplay.exec_not_ready hp, SendsCommand.returnHome.exec_not_ready hp,
      (SendsCommand.entryModeSet id sh).exec_not_ready hp, (SendsCommand.displayControl d c b).exec_not_ready hp,
      SendsCommand.cursorLeft.exec_not_ready hp, SendsCommand.cursorRight.exec_not_ready hp,
      SendsCommand.displayLeft.exec_not_ready hp, SendsCommand.displayRight.exec_not_ready hp,
      (SendsCommand.functionSet l n f).exec_not_ready hp, (SendsCommand.setCgramAddr a6).exec_not_ready hp,
      (SendsCommand.setDdramAddr a7).exec_not_ready hp, (SendsData.dataByte v).exec_not_ready hp, nofun⟩
  · exact SendsCommand.clearDisplay.exec_ready hs
  · exact SendsCommand.returnHome.exec_ready hs
  · exact entryModeByte_eq_sum id sh ▸ (SendsCommand.entryModeSet id sh).exec_ready hs
  · exact displayControlByte_eq_sum d c b ▸ (SendsCommand.displayControl d c b).exec_ready hs
  · exact SendsCommand.cursorLeft.exec_ready hs
  · exact SendsCommand.cursorRight.exec_ready hs
  · exact SendsCommand.displayLeft.exec_ready hs
  · exact SendsCommand.displayRight.exec_ready hs
  · exact functionSetByte_eq_sum l n f ▸ (SendsCommand.functionSet l n f).exec_ready hs
  · exact cgramByte_eq_sum a ▸ (SendsCommand.setCgramAddr a).exec_ready hs
  · exact ddramByte_eq_sum a ▸ (SendsCommand.setDdramAddr a).exec_ready hs
  · exact (SendsData.dataByte v).exec_ready hs

/-! ## Gated operations (R116): the operand check, the store, the gate, the body -/

/-- What a gated operation does after its gate. -/
def cookedBody : Instr → State → Flow
  | .clear => clearBody
  | .home => homeBody
  | .setAcAutoIncrease _ => applySettings entryModeOf
  | .setDisplayFollowCursor _ => applySettings entryModeOf
  | .setDisplayOn _ => applySettings displayControlOf
  | .setCursorVisible _ => applySettings displayControlOf
  | .setCursorBlink _ => applySettings displayControlOf
  | .setDisplayLines _ => applySettings functionSetOf
  | .setDotMatrix _ => applySettings functionSetOf
  | .setPosition row column => jumpTo (rowColumnAddress row column)
  | .moveLeft => moveLeftBody
  | .moveRight => moveRightBody
  | .moveUp => moveUpBody
  | .moveDown => moveDownBody
  | .clearLine row => fun s => (jumpTo (rowColumnAddress row 0) s).andThen (sendSpaces 40)
  | _ => .done

/-- A gated operation with legal operands. -/
def gated (i : Instr) (s : State) : Flow :=
  (requireWriteReady (s.setSettings (storedSettings i s.settings))).andThen (cookedBody i)

theorem setter_legal_flag {f : Byte} (h : (f == 0 || f == 1) = true) (store : Bool → Settings → Settings)
    (command : Settings → Byte) (s : State) : setter (flagOperand f) store command s =
      (requireWriteReady (s.setSettings (if f = 0 ∨ f = 1 then store (f == 1) s.settings else s.settings))).andThen
        (applySettings command) := by
  obtain rfl | rfl : f = 0 ∨ f = 1 := by simpa using h
  · rfl
  · rfl

/-- Operands are checked first (D29), and a legal one of a setter is stored before the gate (D12). -/
theorem exec_cooked {i : Instr} (hc : cooked i = true) (hwf : i.wellFormed = true) (s : State) :
    exec i s = (gated i s).complete := by
  cases i with
  | clear => rfl
  | home => rfl
  | setAcAutoIncrease f => exact congrArg Flow.complete (setter_legal_flag hwf _ _ s)
  | setDisplayFollowCursor f => exact congrArg Flow.complete (setter_legal_flag hwf _ _ s)
  | setDisplayOn f => exact congrArg Flow.complete (setter_legal_flag hwf _ _ s)
  | setCursorVisible f => exact congrArg Flow.complete (setter_legal_flag hwf _ _ s)
  | setCursorBlink f => exact congrArg Flow.complete (setter_legal_flag hwf _ _ s)
  | setDisplayLines n =>
    obtain rfl | rfl : n = 1 ∨ n = 2 := by simpa [Instr.wellFormed] using hwf
    · rfl
    · rfl
  | setDotMatrix n =>
    obtain rfl | rfl : n = 0 ∨ n = 1 := by simpa [Instr.wellFormed] using hwf
    · rfl
    · rfl
  | setPosition row column =>
    obtain ⟨hr, hcol⟩ : row.toNat ≤ 1 ∧ column.toNat ≤ 39 := by simpa [Instr.wellFormed] using hwf
    rw [exec_setPosition, setPosition_legal s (positionOperand_legal hr hcol)]
    rfl
  | moveLeft => rfl
  | moveRight => rfl
  | moveUp => rfl
  | moveDown => rfl
  | clearLine row =>
    have hr : row.toNat ≤ 1 := by simpa [Instr.wellFormed] using hwf
    rw [exec_clearLine, clearLine, rowOperand_legal hr]
    rfl
  | _ => cases hc

theorem exec_cooked_illegal {i : Instr} (hc : cooked i = true) (hwf : i.wellFormed = false) (s : State) :
    exec i s = .next (s.afterResult .invalidArgument) := by
  have flag {f : Byte} (h : (f == 0 || f == 1) = false) : flagOperand f = none := by
    simp only [Bool.or_eq_false_iff, beq_eq_false_iff_ne] at h
    exact flagOperand_illegal h.1 h.2
  cases i with
  | setAcAutoIncrease f => exact complete_setter_illegal (flag hwf)
  | setDisplayFollowCursor f => exact complete_setter_illegal (flag hwf)
  | setDisplayOn f => exact complete_setter_illegal (flag hwf)
  | setCursorVisible f => exact complete_setter_illegal (flag hwf)
  | setCursorBlink f => exact complete_setter_illegal (flag hwf)
  | setDisplayLines n =>
    simp only [Instr.wellFormed, Bool.or_eq_false_iff, beq_eq_false_iff_ne] at hwf
    exact complete_setter_illegal (linesOperand_illegal hwf.1 hwf.2)
  | setDotMatrix n =>
    simp only [Instr.wellFormed, Bool.or_eq_false_iff, beq_eq_false_iff_ne] at hwf
    exact complete_setter_illegal (fontOperand_illegal hwf.1 hwf.2)
  | setPosition row column =>
    have h : 1 < row.toNat ∨ 39 < column.toNat := by
      simp only [Instr.wellFormed, Bool.and_eq_false_iff, decide_eq_false_iff_not, not_le] at hwf
      exact hwf
    exact complete_eq_of_raised (setPosition_illegal s (positionOperand_illegal h))
  | clearLine row =>
    have h : 1 < row.toNat := by simpa [Instr.wellFormed] using hwf
    exact complete_eq_of_raised (clearLine_bad_row s row (rowOperand_illegal h))
  | clear | home | moveLeft | moveRight | moveUp | moveDown => cases hwf
  | _ => cases hc

/-- R116: with `write_ready` false only the store of a legal operand is left. -/
theorem gated_not_ready (i : Instr) {s : State} (hw : s.writeReady = false) :
    gated i s = .raised .invalidState (s.setSettings (storedSettings i s.settings)) :=
  gate_not_ready _ _ hw

theorem gated_ready (i : Instr) {s : State} (hw : s.writeReady = true) :
    gated i s = cookedBody i (s.setSettings (storedSettings i s.settings)) :=
  gate_ready _ _ hw

/-! ## The eight shapes -/

/-- The shapes of an instruction. -/
inductive Shape : Instr → Prop
  | sendBits (v w : Byte) : Shape (.sendBits v w)
  | sendByte (v : Byte) : Shape (.sendByte v)
  | command {i : Instr} {v : Byte} (h : SendsCommand i v) : Shape i
  | data {i : Instr} {v : Byte} (h : SendsData i v) : Shape i
  | gated {i : Instr} (h : cooked i = true) : Shape i
  | init : Shape .init
  | pinsInit : Shape .pinsInit
  | setDataTransBits (n : Byte) : Shape (.setDataTransBits n)

theorem shape_of (i : Instr) : Shape i := by
  cases i with
  | sendBits v w => exact .sendBits v w
  | sendByte v => exact .sendByte v
  | pinsInit => exact .pinsInit
  | init => exact .init
  | setDataTransBits n => exact .setDataTransBits n
  | sendCommand v => exact .command (.sendCommand v)
  | clearDisplay => exact .command .clearDisplay
  | returnHome => exact .command .returnHome
  | entryModeSet id sh => exact .command (.entryModeSet id sh)
  | displayControl d c b => exact .command (.displayControl d c b)
  | cursorLeft => exact .command .cursorLeft
  | cursorRight => exact .command .cursorRight
  | displayLeft => exact .command .displayLeft
  | displayRight => exact .command .displayRight
  | functionSet dl n f => exact .command (.functionSet dl n f)
  | setCgramAddr a => exact .command (.setCgramAddr a)
  | setDdramAddr a => exact .command (.setDdramAddr a)
  | sendData v => exact .data (.sendData v)
  | dataByte v => exact .data (.dataByte v)
  | _ => exact .gated rfl

end Sys2Proof.Machine
end

section
/-! PROOFS. Results and errors of every instruction, by its shape: readiness (R116), what an error leaves behind (R200
to R202), the levels after OK (R25), the two refusals (R167, R168), and what no instruction reads (R16, R19). -/

namespace Sys2Proof.Machine

/-- Settles O49: an illegal operand is answered before the gate, and a legal one only stores a setting. -/
theorem cookedOperationsNeedWriteReady : Obligations.CookedOperationsNeedWriteReady := by
  unfold Obligations.CookedOperationsNeedWriteReady
  intro i s t hc hw he
  cases hwf : i.wellFormed with
  | false =>
    rw [exec_cooked_illegal hc hwf] at he
    cases he
    exact ⟨rfl, rfl, rfl, by simp⟩
  | true =>
    rw [exec_cooked hc hwf, complete_eq_of_raised (gated_not_ready i hw)] at he
    cases he
    exact ⟨rfl, rfl, rfl, by simp [ErrorKind.result]⟩

/-! ## Sending: never refused, and E and RW low once done (R25 item 6, R111) -/

/-- E and RW are at 0. -/
def EnableLow (s : State) : Prop := s.level.e = .low ∧ s.level.rw = .low

/-- A part of an operation that is not refused, and when it is done has left E and RW low. -/
def Sends : Flow → Prop
  | .done t => EnableLow t
  | .raised _ _ => True
  | .refused _ => False

theorem Sends.andThen {f : Flow} {k : State → Flow} (h : Sends f) (hk : ∀ t, EnableLow t → Sends (k t)) :
    Sends (f.andThen k) := by
  cases f with
  | done t => exact hk t h
  | raised e t => trivial
  | refused r => exact h.elim

theorem sends_after_require {k : State → Flow} (c : Bool) (e : ErrorKind) (s : State) (hk : Sends (k s)) :
    Sends ((require c e s).andThen k) := by
  cases c with
  | true => exact hk
  | false => trivial

theorem sends_sendBits (v : Byte) (w : Nat) (s : State) : Sends (sendBits v w s) := by
  obtain ⟨-, hrw, he⟩ := drive_transfer v w s.level
  exact sends_after_require _ _ _ (sends_after_require _ _ _ ⟨he, hrw⟩)

theorem sends_sendByte (v : Byte) (s : State) : Sends (sendByte v s) := by
  unfold sendByte
  split
  · exact (sends_sendBits _ _ _).andThen fun t _ => sends_sendBits _ _ t
  · exact sends_sendBits _ _ _

theorem sends_sendCommand (v : Byte) (s : State) : Sends (sendCommand v s) :=
  sends_after_require _ _ _ (sends_sendByte v _)

theorem sends_sendData (v : Byte) (s : State) : Sends (sendData v s) :=
  sends_after_require _ _ _ ((sends_sendByte v _).andThen fun _ h => h)

theorem sends_sendCommandAndWait (v : Byte) (us : Nat) (s : State) : Sends (sendCommandAndWait v us s) :=
  (sends_sendCommand v s).andThen fun _ h => h

theorem sends_commandThenCursor (v : Byte) (n : Address) (s : State) : Sends (commandThenCursor v n s) :=
  (sends_sendCommandAndWait v _ s).andThen fun _ h => h

theorem sends_jumpTo (n : Address) (s : State) : Sends (jumpTo n s) :=
  sends_commandThenCursor _ n s

theorem sends_clearBody (s : State) : Sends (clearBody s) :=
  (sends_sendCommandAndWait _ _ s).andThen fun _ h => h

theorem sends_homeBody (s : State) : Sends (homeBody s) :=
  (sends_sendCommandAndWait _ _ s).andThen fun _ h => h

theorem sends_sendSpaces (n : Nat) (s : State) (h : EnableLow s) : Sends (sendSpaces n s) := by
  induction n generalizing s with
  | zero => exact h
  | succ n ih => exact (sends_sendData _ s).andThen ih

theorem sends_initSequence (s : State) : Sends (initSequence s) := by
  have wake (us : Nat) (t : State) : Sends (wakeUp us t) := sends_sendCommandAndWait _ us t
  have apply (c : Settings → Byte) (t : State) : Sends (applySettings c t) := sends_sendCommandAndWait _ _ t
  exact (wake _ _).andThen fun t _ => (wake _ t).andThen fun t _ => (wake _ t).andThen fun t _ =>
    (apply _ t).andThen fun t _ => (sends_clearBody t).andThen fun t _ => (sends_homeBody t).andThen fun t _ =>
    (apply _ t).andThen fun t _ => (apply _ t).andThen fun _ h => h

/-- R167, R168: the two cases the spec gives no meaning. -/
def VerticalMoveRefused (i : Instr) (s : State) (r : Refusal) : Prop :=
  (i = .moveUp ∧ s.cursor.toNat < 0x40 ∧ r = .moveUpOnRow0) ∨
  (i = .moveDown ∧ 0x40 ≤ s.cursor.toNat ∧ r = .moveDownOnRow1)

theorem cookedBody_sends {i : Instr} (hc : cooked i = true) (s : State) :
    Sends (cookedBody i s) ∨ ∃ r, VerticalMoveRefused i s r ∧ cookedBody i s = .refused r := by
  cases i with
  | clear => exact .inl (sends_clearBody s)
  | home => exact .inl (sends_homeBody s)
  | setAcAutoIncrease | setDisplayFollowCursor | setDisplayOn | setCursorVisible | setCursorBlink | setDisplayLines
  | setDotMatrix => exact .inl (sends_sendCommandAndWait _ _ s)
  | setPosition row column => exact .inl (sends_jumpTo _ s)
  | moveLeft =>
    refine .inl (?_ : Sends (moveLeftBody s))
    rw [moveLeftBody]
    split
    · exact sends_jumpTo _ s
    · exact sends_commandThenCursor _ _ s
  | moveRight =>
    refine .inl (?_ : Sends (moveRightBody s))
    rw [moveRightBody]
    split
    · exact sends_jumpTo _ s
    · exact sends_commandThenCursor _ _ s
  | moveUp =>
    rcases lt_or_ge s.cursor.toNat 0x40 with row0 | row1
    · exact .inr ⟨_, .inl ⟨rfl, row0, rfl⟩, moveUpBody_row0 row0⟩
    · refine .inl (?_ : Sends (moveUpBody s))
      rw [moveUpBody_row1 row1]
      exact sends_jumpTo _ s
  | moveDown =>
    rcases lt_or_ge s.cursor.toNat 0x40 with row0 | row1
    · refine .inl (?_ : Sends (moveDownBody s))
      rw [moveDownBody_row0 row0]
      exact sends_jumpTo _ s
    · exact .inr ⟨_, .inr ⟨rfl, row1, rfl⟩, moveDownBody_row1 row1⟩
  | clearLine row => exact .inl ((sends_jumpTo _ s).andThen fun t h => sends_sendSpaces 40 t h)
  | _ => cases hc

/-- Past its gate a gated operation sends or is refused; before it, it only stops. -/
theorem exec_cooked_sends {i : Instr} (hc : cooked i = true) (s : State) :
    (∃ f, exec i s = f.complete ∧ Sends f) ∨
      (s.writeReady = true ∧ ∃ r, VerticalMoveRefused i s r ∧ exec i s = .refused r) := by
  cases hwf : i.wellFormed with
  | false => exact .inl ⟨.raised .invalidArgument s, exec_cooked_illegal hc hwf s, trivial⟩
  | true =>
    rw [exec_cooked hc hwf]
    cases hw : s.writeReady with
    | false => exact .inl ⟨_, rfl, gated_not_ready i hw ▸ trivial⟩
    | true =>
      rw [gated_ready i hw]
      rcases cookedBody_sends hc (s.setSettings (storedSettings i s.settings)) with h | ⟨r, hr, h⟩
      · exact .inl ⟨_, rfl, h⟩
      · exact .inr ⟨rfl, r, hr, by rw [h, Flow.complete_refused]⟩

/-- Every instruction but PINS_INIT and SET_DATA_TRANS_BITS sends, unless it is a refused vertical move. -/
theorem exec_sends {i : Instr} (s : State) (hp : i ≠ .pinsInit) (hw : ∀ n, i ≠ .setDataTransBits n) :
    (∃ f, exec i s = f.complete ∧ Sends f) ∨
      (s.writeReady = true ∧ ∃ r, VerticalMoveRefused i s r ∧ exec i s = .refused r) := by
  cases shape_of i with
  | sendBits v w => exact .inl ⟨_, rfl, sends_sendBits v _ s⟩
  | sendByte v => exact .inl ⟨_, rfl, sends_sendByte v s⟩
  | command h => exact .inl ⟨_, h.exec_eq s, sends_sendCommand _ s⟩
  | data h => exact .inl ⟨_, h.exec_eq s, sends_sendData _ s⟩
  | gated hc => exact exec_cooked_sends hc s
  | init => exact .inl ⟨_, exec_init s, sends_initSequence s⟩
  | pinsInit => exact absurd rfl hp
  | setDataTransBits n => exact absurd rfl (hw n)

/-- Settles O46: OK is the answer of a flow that is done. -/
theorem sendingLeavesEnableLow : Obligations.SendingLeavesEnableLow := by
  unfold Obligations.SendingLeavesEnableLow
  intro i s t he hok hp hw
  rcases exec_sends s hp hw with ⟨f, hf, hsends⟩ | ⟨-, r, -, hr⟩
  · rw [hf] at he
    cases f with
    | done u => cases he; exact hsends
    | raised e u =>
      cases he
      cases e <;> simp [ErrorKind.result] at hok
    | refused r => cases he
  · rw [hr] at he
    cases he

/-- An operation that is not refused has a next state. -/
theorem Sends.complete_next {f : Flow} (h : Sends f) : ∃ t, f.complete = .next t := by
  cases f with
  | done t => exact ⟨_, rfl⟩
  | raised e t => exact ⟨_, rfl⟩
  | refused r => exact h.elim

/-- Settles O50: what sends is answered, and PINS_INIT and SET_DATA_TRANS_BITS always are. -/
theorem onlyVerticalMovesAreRefused : Obligations.OnlyVerticalMovesAreRefused := by
  unfold Obligations.OnlyVerticalMovesAreRefused
  intro i s
  by_cases hp : i = .pinsInit
  · subst hp
    exact .inl ⟨_, exec_pinsInit s⟩
  by_cases hn : ∃ n, i = .setDataTransBits n
  · obtain ⟨n, rfl⟩ := hn
    left
    cases h : widthOperand n with
    | none => exact ⟨_, complete_eq_of_raised (setDataTransBits_illegal s h)⟩
    | some w => exact ⟨_, complete_eq_of_done (setDataTransBits_legal s h)⟩
  rcases exec_sends s hp (not_exists.mp hn) with ⟨f, hf, hsends⟩ | ⟨hw, r, ⟨rfl, hc, rfl⟩ | ⟨rfl, hc, rfl⟩, hr⟩
  · exact .inl (hf ▸ hsends.complete_next)
  · exact .inr (.inl ⟨rfl, hw, hc, hr⟩)
  · exact .inr (.inr ⟨rfl, hw, hc, hr⟩)

/-! ## Errors (R200 to R202) -/

/-- What an instruction answers: InvalidArgument for a bad operand, and nothing is left; InvalidState for lacking
readiness, and what R202 lists is left; otherwise OK. -/
def AnswersAsListed (i : Instr) (s t : State) : Prop :=
  (badOperand i s ∧ ¬lacksReadiness i s ∧ t = s.afterResult .invalidArgument) ∨
  (¬badOperand i s ∧ lacksReadiness i s ∧ t = (leftByInvalidState i s).afterResult .invalidState) ∨
  (¬badOperand i s ∧ ¬lacksReadiness i s ∧ ∃ u : State, t = u.afterResult .ok)

/-- An operation without bad operands that needs `pins_ready` only. -/
theorem answersAsListed_of_raw {i : Instr} {s t : State} {f : Flow} (he : exec i s = .next t)
    (hf : exec i s = f.complete) (hbad : ¬badOperand i s) (hlacks : lacksReadiness i s ↔ s.pinsReady = false)
    (hnot : s.pinsReady = false → f = .raised .invalidState (leftByInvalidState i s))
    (hready : s.pinsReady = true → ∃ u, f = .done u) : AnswersAsListed i s t := by
  rw [hf] at he
  cases hp : s.pinsReady with
  | false =>
    rw [complete_eq_of_raised (hnot hp)] at he
    cases he
    exact .inr (.inl ⟨hbad, hlacks.mpr hp, rfl⟩)
  | true =>
    obtain ⟨u, hu⟩ := hready hp
    rw [complete_eq_of_done hu] at he
    cases he
    exact .inr (.inr ⟨hbad, by simp [hlacks, hp], u, rfl⟩)

theorem SendsCommand.errors {i : Instr} {v : Byte} (h : SendsCommand i v) (s : State) :
    ¬badOperand i s ∧ (lacksReadiness i s ↔ s.pinsReady = false) ∧ leftByInvalidState i s = s := by
  cases h <;> simp [badOperand, Instr.wellFormed, lacksReadiness, cooked, leftByInvalidState, storedSettings]

theorem SendsData.errors {i : Instr} {v : Byte} (h : SendsData i v) (s : State) :
    ¬badOperand i s ∧ (lacksReadiness i s ↔ s.pinsReady = false) ∧ leftByInvalidState i s = s := by
  cases h <;> simp [badOperand, Instr.wellFormed, lacksReadiness, cooked, leftByInvalidState, storedSettings]

theorem errors_of_cooked {i : Instr} (hc : cooked i = true) (s : State) :
    (badOperand i s ↔ i.wellFormed = false) ∧
    (lacksReadiness i s ↔ i.wellFormed = true ∧ s.writeReady = false) ∧
    leftByInvalidState i s = s.setSettings (storedSettings i s.settings) := by
  cases i with
  | clear | home | setAcAutoIncrease | setDisplayFollowCursor | setDisplayOn | setCursorVisible | setCursorBlink
  | setDisplayLines | setDotMatrix | setPosition | moveLeft | moveRight | moveUp | moveDown | clearLine =>
    exact ⟨Iff.rfl, Iff.rfl, rfl⟩
  | _ => cases hc

/-- On a ready block the body of a gated operation is not stopped by an error. -/
theorem cookedBody_ready (i : Instr) {s : State} (h : RawReady s) :
    (∃ t, cookedBody i s = .done t) ∨ ∃ r, cookedBody i s = .refused r := by
  cases i with
  | clear => exact .inl ⟨_, clearBody_ready s h⟩
  | home => exact .inl ⟨_, homeBody_ready s h⟩
  | setAcAutoIncrease | setDisplayFollowCursor | setDisplayOn | setCursorVisible | setCursorBlink | setDisplayLines
  | setDotMatrix => exact .inl ⟨_, applySettings_ready s _ h⟩
  | setPosition row column => exact .inl ⟨_, jumpTo_ready s _ h⟩
  | moveLeft =>
    by_cases hc : s.cursor = 0x00 ∨ s.cursor = 0x40
    · exact .inl ⟨_, (moveLeftBody_at_start rfl hc rfl).trans (jumpTo_ready s _ h)⟩
    · obtain ⟨h00, h40⟩ := not_or.mp hc
      exact .inl ⟨_, (moveLeftBody_within h00 h40).trans (commandThenCursor_ready s _ _ h)⟩
  | moveRight =>
    by_cases hc : s.cursor = 0x27 ∨ s.cursor = 0x67
    · exact .inl ⟨_, (moveRightBody_at_end rfl hc rfl).trans (jumpTo_ready s _ h)⟩
    · obtain ⟨h27, h67⟩ := not_or.mp hc
      exact .inl ⟨_, (moveRightBody_within h27 h67).trans (commandThenCursor_ready s _ _ h)⟩
  | moveUp =>
    rcases lt_or_ge s.cursor.toNat 0x40 with row0 | row1
    · exact .inr ⟨_, moveUpBody_row0 row0⟩
    · exact .inl ⟨_, (moveUpBody_row1 row1).trans (jumpTo_ready s _ h)⟩
  | moveDown =>
    rcases lt_or_ge s.cursor.toNat 0x40 with row0 | row1
    · exact .inl ⟨_, (moveDownBody_row0 row0).trans (jumpTo_ready s _ h)⟩
    · exact .inr ⟨_, moveDownBody_row1 row1⟩
  | clearLine row =>
    refine .inl (?_ : ∃ t, (jumpTo (rowColumnAddress row 0) s).andThen (sendSpaces 40) = .done t)
    rw [jumpTo_ready s _ h, Flow.andThen_done]
    exact ⟨_, sendSpaces_ready 39 _ h⟩
  | _ => exact .inl ⟨s, rfl⟩

theorem answersAsListed_of_cooked {i : Instr} {s t : State} (hc : cooked i = true) (h : Invariant s)
    (he : exec i s = .next t) : AnswersAsListed i s t := by
  obtain ⟨hbad, hlacks, hleft⟩ := errors_of_cooked hc s
  rw [AnswersAsListed, hbad, hlacks, hleft]
  cases hwf : i.wellFormed with
  | false =>
    rw [exec_cooked_illegal hc hwf] at he
    cases he
    exact .inl ⟨rfl, by simp, rfl⟩
  | true =>
    rw [exec_cooked hc hwf] at he
    cases hw : s.writeReady with
    | false =>
      rw [complete_eq_of_raised (gated_not_ready i hw)] at he
      cases he
      exact .inr (.inl ⟨by simp, by simp, rfl⟩)
    | true =>
      have hp := h.writeReady_pinsReady hw
      have hwidth : ∀ n, i ≠ .setDataTransBits n := by rintro n rfl; cases hc
      have hready : RawReady (s.setSettings (storedSettings i s.settings)) :=
        ⟨hp, by rw [State.setSettings_settings, storedSettings_width i _ hwidth]; exact h.pinsReady_bound hp⟩
      rw [gated_ready i hw] at he
      rcases cookedBody_ready i hready with ⟨u, hu⟩ | ⟨r, hr⟩
      · rw [complete_eq_of_done hu] at he
        cases he
        exact .inr (.inr ⟨by simp, by simp, u, rfl⟩)
      · rw [hr] at he
        cases he

/-- R201, R202: from every state with the invariants an instruction answers as listed. -/
theorem exec_answersAsListed {i : Instr} {s t : State} (h : Invariant s) (he : exec i s = .next t) :
    AnswersAsListed i s t := by
  have ready (hp : s.pinsReady = true) : RawReady s := ⟨hp, h.pinsReady_bound hp⟩
  cases shape_of i with
  | sendBits v w =>
    by_cases hbad : s.pinsReady = true ∧ s.boundData.val ≠ w.toNat
    · rw [exec_sendBits, complete_eq_of_raised (sendBits_width_mismatch s v _ hbad.1 hbad.2)] at he
      cases he
      exact .inl ⟨hbad, by simp [lacksReadiness, cooked, hbad.1], rfl⟩
    · exact answersAsListed_of_raw he (exec_sendBits v w s) hbad Iff.rfl (sendBits_not_ready s v _)
        fun hp => ⟨_, sendBits_ready s v _ hp (by simpa [hp] using hbad)⟩
  | sendByte v =>
    exact answersAsListed_of_raw he (exec_sendByte v s) nofun Iff.rfl (sendByte_not_ready s v)
      fun hp => ⟨_, sendByte_ready s v (ready hp)⟩
  | command hv =>
    obtain ⟨hbad, hlacks, hleft⟩ := hv.errors s
    exact answersAsListed_of_raw he (hv.exec_eq s) hbad hlacks
      (fun hp => by rw [hleft, sendCommand_not_ready s _ hp])
      fun hp => ⟨_, sendCommand_ready s _ (ready hp)⟩
  | data hv =>
    obtain ⟨hbad, hlacks, hleft⟩ := hv.errors s
    exact answersAsListed_of_raw he (hv.exec_eq s) hbad hlacks
      (fun hp => by rw [hleft, sendData_not_ready s _ hp])
      fun hp => ⟨_, sendData_ready s _ (ready hp)⟩
  | gated hc => exact answersAsListed_of_cooked hc h he
  | init =>
    exact answersAsListed_of_raw he (exec_init s) nofun Iff.rfl (initSequence_not_ready s)
      fun hp => ⟨_, initSequence_ready s (ready hp)⟩
  | pinsInit =>
    cases he
    exact .inr (.inr ⟨nofun, nofun, _, rfl⟩)
  | setDataTransBits n =>
    rw [exec_setDataTransBits] at he
    by_cases hn : n = 4 ∨ n = 8
    · obtain ⟨hbad, w, hw⟩ : ¬badOperand (.setDataTransBits n) s ∧ ∃ w, widthOperand n = some w := by
        rcases hn with rfl | rfl <;> exact ⟨nofun, _, rfl⟩
      rw [complete_eq_of_done (setDataTransBits_legal s hw)] at he
      cases he
      exact .inr (.inr ⟨hbad, nofun, _, rfl⟩)
    · obtain ⟨h4, h8⟩ := not_or.mp hn
      rw [complete_eq_of_raised (setDataTransBits_illegal s (widthOperand_illegal h4 h8))] at he
      cases he
      have hbad : badOperand (.setDataTransBits n) s :=
        Bool.or_eq_false_iff.mpr ⟨beq_eq_false_iff_ne.mpr h4, beq_eq_false_iff_ne.mpr h8⟩
      exact .inl ⟨hbad, nofun, rfl⟩

theorem leftByInvalidState_results (i : Instr) (s : State) : (leftByInvalidState i s).results = s.results := by
  unfold leftByInvalidState
  split <;> rfl

/-- Settles O47: of the three answers only the first is InvalidArgument. -/
theorem invalidArgumentLeavesNothing : Obligations.InvalidArgumentLeavesNothing := by
  unfold Obligations.InvalidArgumentLeavesNothing
  intro i s t h he
  rcases exec_answersAsListed h he with ⟨hbad, -, rfl⟩ | ⟨hbad, -, rfl⟩ | ⟨hbad, -, u, rfl⟩
  · simp [hbad]
  · simp [hbad]
  · simp [hbad]

/-- Settles O48: of the three answers only the second is InvalidState. -/
theorem invalidStateLeavesWhatTheSpecLists : Obligations.InvalidStateLeavesWhatTheSpecLists := by
  unfold Obligations.InvalidStateLeavesWhatTheSpecLists
  intro i s t h he
  rcases exec_answersAsListed h he with ⟨-, hlacks, rfl⟩ | ⟨-, hlacks, rfl⟩ | ⟨-, hlacks, u, rfl⟩
  · simp [hlacks]
  · simp [hlacks, leftByInvalidState_results]
  · simp [hlacks]

end Sys2Proof.Machine
end

section
/-! PROOFS. What no instruction reads: the pin levels and `read_ready` (R16, R19). -/

namespace Sys2Proof.Machine

/-! ## States and flows with the unread fields blotted out -/

/-- The state with its levels and `read_ready` forgotten. -/
def State.blind (s : State) : State := { s with level := .allUnknown, readReady := false }

/-- The flow with its state blinded. -/
def Flow.blind : Flow → Flow
  | .done s => .done s.blind
  | .raised e s => .raised e s.blind
  | .refused r => .refused r

/-- States that agree once blinded differ only in the two fields. -/
theorem State.eq_of_blind_eq {s t : State} (h : t.blind = s.blind) :
    t = { s with level := t.level, readReady := t.readReady } := by
  cases s
  cases t
  simp only [State.blind, State.mk.injEq] at h ⊢
  simpa using h

/-- Flows that agree once blinded end alike, in states that agree once blinded. -/
theorem Flow.cases_of_blind_eq {f g : Flow} (h : g.blind = f.blind) :
    (∃ s t, f = .done s ∧ g = .done t ∧ t.blind = s.blind) ∨
    (∃ e s t, f = .raised e s ∧ g = .raised e t ∧ t.blind = s.blind) ∨
    ∃ r, f = .refused r ∧ g = .refused r := by
  cases f <;> cases g <;> simp_all [Flow.blind]

/-- A part of an operation that reads neither field: what it does to a state, up to the two fields, it does to the
blinded one. -/
def Unread (k : State → Flow) : Prop := ∀ s, (k s.blind).blind = (k s).blind

/-- Such a part does the same to states that agree once blinded. -/
theorem Unread.congr {k : State → Flow} (hk : Unread k) {s t : State} (h : s.blind = t.blind) :
    (k s).blind = (k t).blind := by
  rw [← hk s, ← hk t, h]

theorem Unread.andThen {f k : State → Flow} (hf : Unread f) (hk : Unread k) :
    Unread fun s => (f s).andThen k := by
  intro s
  rcases Flow.cases_of_blind_eq (hf s) with ⟨t, u, ht, hu, h⟩ | ⟨e, t, u, ht, hu, h⟩ | ⟨r, ht, hu⟩
  · simp only [ht, hu, Flow.andThen_done]
    exact hk.congr h
  · simp only [ht, hu, Flow.andThen_raised, Flow.blind, h]
  · simp only [ht, hu, Flow.andThen_refused]

/-- Writing a state before going on. -/
theorem Unread.after {k : State → Flow} (hk : Unread k) (g : State → State)
    (hg : ∀ s, (g s.blind).blind = (g s).blind) : Unread fun s => k (g s) :=
  fun s => hk.congr (hg s)

theorem unread_write (g : State → State) (hg : ∀ s, (g s.blind).blind = (g s).blind) : Unread fun s => .done (g s) :=
  fun s => congrArg Flow.done (hg s)

theorem unread_require (c : State → Bool) (e : ErrorKind) (hc : ∀ s, c s.blind = c s) :
    Unread fun s => require (c s) e s := by
  intro s
  show (require (c s.blind) e s.blind).blind = (require (c s) e s).blind
  rw [hc]
  cases c s <;> rfl

/-- A choice that does not depend on the two fields. -/
theorem unread_ite (c : State → Prop) [∀ s, Decidable (c s)] (hc : ∀ s, c s.blind ↔ c s) {f k : State → Flow}
    (hf : Unread f) (hk : Unread k) : Unread fun s => if c s then f s else k s := by
  intro s
  simp only [hc]
  split
  · exact hf s
  · exact hk s

/-! ## The send procedures -/

theorem unread_sendBits (v : Byte) (w : Nat) : Unread (sendBits v w) :=
  (unread_require _ _ fun _ => rfl).andThen ((unread_require _ _ fun _ => rfl).andThen (unread_write _ fun _ => rfl))

theorem unread_sendByte (v : Byte) : Unread (sendByte v) := by
  intro s
  have width : s.blind.settings.dataTransBits = s.settings.dataTransBits := rfl
  rw [sendByte, sendByte, width]
  split
  · exact (unread_sendBits _ 4).andThen (unread_sendBits _ 4) s
  · exact unread_sendBits _ 8 s

theorem unread_sendCommand (v : Byte) : Unread (sendCommand v) :=
  (unread_require _ _ fun _ => rfl).andThen ((unread_sendByte v).after _ fun _ => rfl)

theorem unread_sendData (v : Byte) : Unread (sendData v) :=
  (unread_require _ _ fun _ => rfl).andThen
    (((unread_sendByte v).after _ fun _ => rfl).andThen (unread_write _ fun _ => rfl))

theorem unread_sendCommandAndWait (v : Byte) (us : Nat) : Unread (sendCommandAndWait v us) :=
  (unread_sendCommand v).andThen (unread_write _ fun _ => rfl)

theorem unread_commandThenCursor (v : Byte) (n : Address) : Unread (commandThenCursor v n) :=
  (unread_sendCommandAndWait v _).andThen (unread_write _ fun _ => rfl)

theorem unread_jumpTo (n : Address) : Unread (jumpTo n) :=
  unread_commandThenCursor _ n

theorem unread_clearBody : Unread clearBody :=
  (unread_sendCommandAndWait _ _).andThen (unread_write _ fun _ => rfl)

theorem unread_homeBody : Unread homeBody :=
  (unread_sendCommandAndWait _ _).andThen (unread_write _ fun _ => rfl)

theorem unread_wakeUp (us : Nat) : Unread (wakeUp us) :=
  fun s => unread_sendCommandAndWait (wakeOf s.settings) us s

theorem unread_applySettings (c : Settings → Byte) : Unread (applySettings c) :=
  fun s => unread_sendCommandAndWait (c s.settings) _ s

theorem unread_sendSpaces (n : Nat) : Unread (sendSpaces n) := by
  induction n with
  | zero => exact unread_write _ fun _ => rfl
  | succ n ih => exact (unread_sendData _).andThen ih

theorem unread_initSequence : Unread initSequence :=
  ((unread_wakeUp _).after _ fun _ => rfl).andThen <| (unread_wakeUp _).andThen <| (unread_wakeUp _).andThen <|
    (unread_applySettings _).andThen <| unread_clearBody.andThen <| unread_homeBody.andThen <|
    (unread_applySettings _).andThen <| (unread_applySettings _).andThen <| unread_write _ fun _ => rfl

/-! ## Every instruction -/

theorem unread_cookedBody (i : Instr) : Unread (cookedBody i) := by
  cases i with
  | clear => exact unread_clearBody
  | home => exact unread_homeBody
  | setAcAutoIncrease | setDisplayFollowCursor | setDisplayOn | setCursorVisible | setCursorBlink | setDisplayLines
  | setDotMatrix => exact unread_applySettings _
  | setPosition row column => exact unread_jumpTo _
  | moveLeft =>
    exact unread_ite _ (fun _ => Iff.rfl) (fun s => unread_jumpTo (ret s.cursor) s)
      fun s => unread_commandThenCursor _ (ret s.cursor) s
  | moveRight =>
    exact unread_ite _ (fun _ => Iff.rfl) (fun s => unread_jumpTo (adv s.cursor) s)
      fun s => unread_commandThenCursor _ (adv s.cursor) s
  | moveUp => exact unread_ite _ (fun _ => Iff.rfl) (fun _ => rfl) fun s => unread_jumpTo (s.cursor - 0x40) s
  | moveDown => exact unread_ite _ (fun _ => Iff.rfl) (fun _ => rfl) fun s => unread_jumpTo (s.cursor + 0x40) s
  | clearLine row => exact (unread_jumpTo _).andThen (unread_sendSpaces 40)
  | _ => exact unread_write _ fun _ => rfl

theorem unread_gated (i : Instr) : Unread (gated i) :=
  ((unread_require State.writeReady _ fun _ => rfl).after _ fun _ => rfl).andThen (unread_cookedBody i)

/-- Every instruction is the end of a flow that reads neither field. -/
theorem exec_unread (i : Instr) : ∃ f, Unread f ∧ ∀ s, exec i s = (f s).complete := by
  cases shape_of i with
  | sendBits v w => exact ⟨_, unread_sendBits v w.toNat, exec_sendBits v w⟩
  | sendByte v => exact ⟨_, unread_sendByte v, exec_sendByte v⟩
  | command h => exact ⟨_, unread_sendCommand _, h.exec_eq⟩
  | data h => exact ⟨_, unread_sendData _, h.exec_eq⟩
  | gated hc =>
    cases hwf : i.wellFormed with
    | false => exact ⟨.raised .invalidArgument, fun _ => rfl, exec_cooked_illegal hc hwf⟩
    | true => exact ⟨_, unread_gated i, exec_cooked hc hwf⟩
  | init => exact ⟨_, unread_initSequence, exec_init⟩
  | pinsInit => exact ⟨_, unread_write _ fun _ => rfl, exec_pinsInit⟩
  | setDataTransBits n =>
    refine ⟨_, fun s => ?_, exec_setDataTransBits n⟩
    unfold setDataTransBits
    split <;> rfl

/-- Two flows that agree once blinded are answered alike, up to the two fields. -/
theorem complete_of_blind_eq {f g : Flow} {t : State} (h : g.blind = f.blind) (hf : f.complete = .next t) :
    ∃ l b, g.complete = .next { t with level := l, readReady := b } := by
  rcases Flow.cases_of_blind_eq h with ⟨s, u, rfl, rfl, hblind⟩ | ⟨e, s, u, rfl, rfl, hblind⟩ | ⟨r, rfl, rfl⟩
  · cases hf
    exact ⟨u.level, u.readReady, by rw [State.eq_of_blind_eq hblind]; rfl⟩
  · cases hf
    exact ⟨u.level, u.readReady, by rw [State.eq_of_blind_eq hblind]; rfl⟩
  · cases hf

/-- Settles O51: the two states agree once blinded, so the instruction's flow does the same to both. -/
theorem levelsAndReadReadyAreNeverRead : Obligations.LevelsAndReadReadyAreNeverRead := by
  unfold Obligations.LevelsAndReadReadyAreNeverRead
  intro i s t l b he
  obtain ⟨f, hf, hexec⟩ := exec_unread i
  have same : ({ s with level := l, readReady := b } : State).blind = s.blind := rfl
  rw [hexec] at he ⊢
  exact complete_of_blind_eq (hf.congr same) he

end Sys2Proof.Machine
end

section
/-! PROOFS. The cycle of `adv` (R160 to R162), readying the block (R232), and PRINT_LINE (R191). -/

namespace Sys2Proof.Machine

/-! ## `adv` is one cycle through V, and `ret` runs it backwards -/

theorem ret_adv {c : Address} (hc : inRows c = true) : ret (adv c) = c := by
  by_cases h27 : c = 0x27
  · subst h27; rfl
  by_cases h67 : c = 0x67
  · subst h67; rfl
  have hV := (inRows_iff c).mp hc
  have hnext : inRows (c + 1) = true := adv_eq_add_one hc h27 h67 ▸ adv_inRows c hc
  rw [adv_eq_add_one hc h27 h67, ret_eq_sub_one hnext (by bv_omega) (by bv_omega), BitVec.add_sub_cancel]

theorem adv_ret {c : Address} (hc : inRows c = true) : adv (ret c) = c := by
  by_cases h00 : c = 0x00
  · subst h00; rfl
  by_cases h40 : c = 0x40
  · subst h40; rfl
  have hV := (inRows_iff c).mp hc
  have hprev : inRows (c - 1) = true := ret_eq_sub_one hc h00 h40 ▸ ret_inRows c hc
  rw [ret_eq_sub_one hc h00 h40, adv_eq_add_one hprev (by bv_omega) (by bv_omega), BitVec.sub_add_cancel]

/-- Row 0 is reached in its column's number of advances from 0x00, row 1 in forty more. -/
theorem exists_iterate_adv_eq {c : Address} (hc : inRows c = true) : ∃ k : Fin 80, adv^[k.val] 0x00 = c := by
  rcases (inRows_iff c).mp hc with row0 | row1
  · exact ⟨⟨c.toNat, by omega⟩, BitVec.eq_of_toNat_eq
      ((toNat_iterate_adv_within_row (.inl rfl) row0).trans (Nat.zero_add _))⟩
  · refine ⟨⟨c.toNat - 0x40 + 40, by omega⟩, BitVec.eq_of_toNat_eq ?_⟩
    rw [Function.iterate_add_apply, iterate_adv_forty_row0, toNat_iterate_adv_within_row (.inr rfl) (by omega)]
    exact Nat.add_sub_cancel' row1.1

theorem iterate_adv_eighty_zero : adv^[80] 0x00 = 0x00 := by
  rw [show 80 = 40 + 40 from rfl, Function.iterate_add_apply, iterate_adv_forty_row0, iterate_adv_forty_row1]

/-- The cycle closes at 0x00, so it closes at every address on it. -/
theorem iterate_adv_eighty {c : Address} (hc : inRows c = true) : adv^[80] c = c := by
  obtain ⟨k, rfl⟩ := exists_iterate_adv_eq hc
  rw [← Function.iterate_add_apply, Nat.add_comm, Function.iterate_add_apply, iterate_adv_eighty_zero]

/-- Settles O26: both functions stay in V and undo each other, and the 80 addresses are one cycle of `adv`. -/
theorem advanceIsOneCycleOfEightyAndRetreatUndoesIt : Obligations.AdvanceIsOneCycleOfEightyAndRetreatUndoesIt := by
  unfold Obligations.AdvanceIsOneCycleOfEightyAndRetreatUndoesIt
  exact ⟨fun c hc => ⟨adv_inRows c hc, ret_inRows c hc, ret_adv hc, adv_ret hc, iterate_adv_eighty hc⟩,
    fun c hc => exists_iterate_adv_eq hc⟩

/-! ## From reset to a ready block -/

theorem exec_init_ready {s : State} (h : RawReady s) :
    exec .init s = .next ((s.afterInitCommands.setCursor 0x00).setWriteReady.afterResult .ok) := by
  rw [exec_init, complete_eq_of_done (initSequence_ready s h)]

/-- Settles O34: PINS_INIT binds the lines of the width, which is what INIT needs. -/
theorem pinsInitThenInitReadiesTheBlock : Obligations.PinsInitThenInitReadiesTheBlock := by
  unfold Obligations.PinsInitThenInitReadiesTheBlock
  intro c
  have hready : RawReady
      (((State.resetWith c).setBoundData (widthLines c.dataTransBits)).forgetLevels.setPinsReady.report .ok) :=
    ⟨rfl, rfl⟩
  exact ⟨_, _, exec_pinsInit _, exec_init_ready hready, ⟨rfl, rfl, rfl⟩, rfl, rfl, rfl, rfl⟩

/-! ## Runs of operations (R191) -/

theorem runWhileOk_cons_of_ok {i : Instr} {rest : List Instr} {s t : State}
    (h : exec i s = .next (t.afterResult .ok)) : runWhileOk (i :: rest) s = runWhileOk rest (t.afterResult .ok) := by
  simp [runWhileOk, h]

theorem runWhileOk_cons_of_error {i : Instr} {rest : List Instr} {s t : State} {r : Result} (hr : r ≠ .ok)
    (h : exec i s = .next (t.afterResult r)) : runWhileOk (i :: rest) s = .next (t.afterResult r) := by
  simp [runWhileOk, h, hr]

theorem printLine_eq_run {text : List Byte} (htext : text.length ≤ 40) (row : Byte) (s : State) :
    printLine text row s = runWhileOk (printLineOps text row) s :=
  if_pos htext

theorem printLine_too_long {text : List Byte} (htext : 40 < text.length) (row : Byte) (s : State) :
    printLine text row s = .refused .printLineTooLong :=
  if_neg (Nat.not_le.mpr htext)

/-- The address-set of a row's first column. -/
theorem ddramByte_row {row : Byte} (hr : row.toNat ≤ 1) :
    ddramByte (rowColumnAddress row 0) = if row = 1 then 0xC0 else 0x80 := by
  rcases row_eq_zero_or_one hr with rfl | rfl <;> rfl

theorem exec_setPosition_ready {row column : Byte} {s : State} (hr : row.toNat ≤ 1) (hc : column.toNat ≤ 39)
    (hs : CookedReady s) : exec (.setPosition row column) s =
      .next ((((s.afterCommand (ddramByte (rowColumnAddress row column))).afterWait tCmdUs).setCursor
        (rowColumnAddress row column)).afterResult .ok) := by
  rw [exec_setPosition, setPosition_legal s (positionOperand_legal hr hc)]
  exact complete_commandThenCursor_ready hs rfl

/-- The state after CLEAR_LINE on a ready block, with the cursor at `last` (R190). -/
def State.afterClearLine (s : State) (row : Byte) (last : Address) : State :=
  { s with
    trace := s.trace ++ commandOnBus s.settings.dataTransBits (if row = 1 then 0xC0 else 0x80) ++ [Event.wait tCmdUs] ++
      (List.replicate 40 (dataOnBus s.settings.dataTransBits 0x20)).flatten
    level := ((s.afterCommand (if row = 1 then 0xC0 else 0x80)).afterData 0x20).level
    cursor := last }

theorem exec_clearLine_afterClearLine {row : Byte} {s : State} (hr : row.toNat ≤ 1) (hs : CookedReady s) :
    exec (.clearLine row) s = .next ((s.afterClearLine row (adv^[40] (rowColumnAddress row 0))).afterResult .ok) :=
  exec_clearLine_ready hs (rowOperand_legal hr) (ddramByte_row hr) rfl

/-- SET_POSITION to the start of a row and a run of SEND_DATA. -/
theorem runTextOnRow_ready (text : List Byte) {row : Byte} {s : State} (hr : row.toNat ≤ 1) (hs : CookedReady s) :
    ∃ l : PinLevels, runWhileOk (.setPosition row 0 :: text.map .sendData) s = .next { s with
      trace := s.trace ++ commandOnBus s.settings.dataTransBits (if row = 1 then 0xC0 else 0x80) ++
        [Event.wait tCmdUs] ++ (text.map (dataOnBus s.settings.dataTransBits)).flatten
      level := l
      cursor := adv^[text.length] (rowColumnAddress row 0)
      results := s.results ++ List.replicate (text.length + 1) .ok } := by
  have hset := exec_setPosition_ready (column := 0) hr (by decide) hs
  rw [ddramByte_row hr] at hset
  obtain ⟨l, hl⟩ := runText_ready text ((((s.afterCommand (if row = 1 then 0xC0 else 0x80)).afterWait tCmdUs).setCursor
    (rowColumnAddress row 0)).afterResult .ok) hs.2
  refine ⟨l, ?_⟩
  rw [runWhileOk_cons_of_ok hset, hl]
  simp [State.setCursor, List.replicate_succ]

/-- The events of PRINT_LINE on a ready block: the line cleared, the cursor set back to its start, the text. -/
def printLineEvents (w : TransferWidth) (row : Byte) (text : List Byte) : List Event :=
  commandOnBus w (if row = 1 then 0xC0 else 0x80) ++ [.wait tCmdUs] ++ (List.replicate 40 (dataOnBus w 0x20)).flatten ++
    commandOnBus w (if row = 1 then 0xC0 else 0x80) ++ [.wait tCmdUs] ++ (text.map (dataOnBus w)).flatten

/-- R191: CLEAR_LINE, SET_POSITION and the data writes each answer OK. -/
theorem printLine_ready {text : List Byte} {row : Byte} {s : State} (htext : text.length ≤ 40) (hr : row.toNat ≤ 1)
    (hs : CookedReady s) : ∃ l : PinLevels, printLine text row s = .next { s with
      trace := s.trace ++ printLineEvents s.settings.dataTransBits row text
      level := l
      cursor := adv^[text.length] (rowColumnAddress row 0)
      results := s.results ++ List.replicate (text.length + 2) .ok } := by
  have hclear := exec_clearLine_afterClearLine hr hs
  generalize adv^[40] (rowColumnAddress row 0) = last at hclear
  have hcleared : CookedReady ((s.afterClearLine row last).afterResult .ok) := hs
  obtain ⟨l, hl⟩ := runTextOnRow_ready text hr hcleared
  refine ⟨l, ?_⟩
  rw [printLine_eq_run htext, printLineOps, runWhileOk_cons_of_ok hclear, hl]
  simp [State.afterClearLine, printLineEvents, List.replicate_succ]

/-- R191: the cursor ends after the text, or on the other row when the text fills its own. -/
theorem toNat_iterate_adv_text {row : Byte} {n : Nat} (hr : row.toNat ≤ 1) (hn : n ≤ 40) :
    (adv^[n] (rowColumnAddress row 0)).toNat =
      if n ≤ 39 then row.toNat * 0x40 + n else (1 - row.toNat) * 0x40 := by
  split_ifs with h39
  · have hstart : rowColumnAddress row 0 = 0x00 ∨ rowColumnAddress row 0 = 0x40 := by
      rcases row_eq_zero_or_one hr with rfl | rfl
      · exact .inl rfl
      · exact .inr rfl
    rw [toNat_iterate_adv_within_row hstart h39, toNat_rowColumnAddress hr (by decide)]
    rfl
  · obtain rfl : n = 40 := by omega
    rcases row_eq_zero_or_one hr with rfl | rfl
    · exact congrArg BitVec.toNat iterate_adv_forty_row0
    · exact congrArg BitVec.toNat iterate_adv_forty_row1

/-- Settles O36: a run stopped at CLEAR_LINE's checks, or run to its end. -/
theorem printLineWritesTheTextOnItsRow : Obligations.PrintLineWritesTheTextOnItsRow := by
  unfold Obligations.PrintLineWritesTheTextOnItsRow
  intro s text row
  obtain ⟨clearIllegal, clearNotReady, -⟩ := clearLineWritesFortySpaces s row
  refine ⟨fun h => printLine_too_long h row s, fun htext hr => ?illegal, fun htext hr hw => ?notReady,
    fun htext hr hs => ?ready⟩
  case illegal =>
    rw [printLine_eq_run htext]
    exact runWhileOk_cons_of_error (by decide) (clearIllegal hr)
  case notReady =>
    rw [printLine_eq_run htext]
    exact runWhileOk_cons_of_error (by decide) (clearNotReady hr hw)
  case ready =>
    obtain ⟨l, hl⟩ := printLine_ready htext hr hs
    exact ⟨_, hl, toNat_iterate_adv_text hr htext, by simp [printLineEvents], rfl, rfl⟩

end Sys2Proof.Machine
end

section
/-! PROOFS. What a receiver reads (R84) and how long operations last (R246), from the events they add. -/

namespace Sys2Proof.Machine

/-! ## The events of INIT as a list of commands and waits -/

/-- Commands, each with the wait that follows it. -/
def commandsOnBus (w : TransferWidth) (steps : List (Byte × Nat)) : List Event :=
  (steps.map fun p => commandOnBus w p.1 ++ [.wait p.2]).flatten

/-- The eight commands of R181 with their waits. -/
def initSteps (c : Settings) : List (Byte × Nat) :=
  [(wakeOf c, tW1), (wakeOf c, tW2), (wakeOf c, tW3), (functionSetOf c, tCmdUs), (clearDisplayByte, tLong),
   (returnHomeByte, tLong), (entryModeOf c, tCmdUs), (displayControlOf c, tCmdUs)]

theorem afterInitCommands_trace (s : State) : s.afterInitCommands.trace =
    s.trace ++ (.wait tPwr :: commandsOnBus s.settings.dataTransBits (initSteps s.settings)) := by
  simp [State.afterInitCommands, commandsOnBus, initSteps]

/-! ## The events an operation adds are determined -/

section
variable {s t : State} {es new : List Event}

/-- The events added are read off the next state's trace. -/
theorem added_events {a : Answer} {u : State} (htrace : t.trace = s.trace ++ es) (he : a = .next t)
    (ha : a = .next u) (hu : u.trace = s.trace ++ new) : es = new := by
  obtain rfl : t = u := Host.Outcome.next.inj (he.symm.trans ha)
  exact List.append_cancel_left (htrace.symm.trans hu)

variable (htrace : t.trace = s.trace ++ es)
include htrace

theorem sendCommand_added {v : Byte} (hs : RawReady s) (he : exec (.sendCommand v) s = .next t) :
    es = commandOnBus s.settings.dataTransBits v :=
  added_events htrace he ((SendsCommand.sendCommand v).exec_ready hs) rfl

theorem sendData_added {v : Byte} (hs : RawReady s) (he : exec (.sendData v) s = .next t) :
    es = dataOnBus s.settings.dataTransBits v :=
  added_events htrace he ((SendsData.sendData v).exec_ready hs) rfl

theorem init_added (hs : RawReady s) (he : exec .init s = .next t) :
    es = .wait tPwr :: commandsOnBus s.settings.dataTransBits (initSteps s.settings) :=
  added_events htrace he (exec_init_ready hs) (afterInitCommands_trace s)

theorem clear_added (hs : CookedReady s) (he : exec .clear s = .next t) :
    es = commandsOnBus s.settings.dataTransBits [(clearDisplayByte, tLong)] :=
  added_events htrace he ((clearSendsWaitsAndHomesTheCursor s).2 hs) (by simp [commandsOnBus, tLong, clearDisplayByte])

theorem clearLine_added {row : Byte} (hr : row.toNat ≤ 1) (hs : CookedReady s)
    (he : exec (.clearLine row) s = .next t) :
    es = commandsOnBus s.settings.dataTransBits [(if row = 1 then 0xC0 else 0x80, tCmdUs)] ++
      ((List.replicate 40 0x20).map (dataOnBus s.settings.dataTransBits)).flatten :=
  added_events htrace he (exec_clearLine_afterClearLine hr hs) (by
    rw [List.map_replicate]
    simp only [State.afterResult_trace, State.afterClearLine, commandsOnBus, List.map_cons, List.map_nil,
      List.flatten_cons, List.flatten_nil, List.append_nil, List.append_assoc])

/-- A text that is not refused has at most 40 characters. -/
theorem printLine_added {text : List Byte} {row : Byte} (hr : row.toNat ≤ 1) (hs : CookedReady s)
    (he : printLine text row s = .next t) : es = printLineEvents s.settings.dataTransBits row text := by
  have htext : text.length ≤ 40 := by
    by_contra h
    rw [printLine_too_long (Nat.not_le.mp h)] at he
    cases he
  obtain ⟨l, hl⟩ := printLine_ready htext hr hs
  exact added_events htrace he hl rfl

end

/-! ## The receiver (R84) -/

theorem received_commandsOnBus (w : TransferWidth) (u : BusView) (steps : List (Byte × Nat)) (rest : List Event) :
    ∃ u', received w u (commandsOnBus w steps ++ rest) =
      (steps.map fun p => (false, p.1)) ++ received w u' rest := by
  induction steps generalizing u with
  | nil => exact ⟨u, rfl⟩
  | cons p steps ih =>
    obtain ⟨u₁, h₁⟩ := received_byte w u false p.1 ([.wait p.2] ++ (commandsOnBus w steps ++ rest))
    obtain ⟨u₂, h₂⟩ := ih u₁
    refine ⟨u₂, ?_⟩
    rw [received_wait, h₂] at h₁
    simpa [commandsOnBus, commandOnBus] using h₁

theorem received_dataRun (w : TransferWidth) (u : BusView) (vs : List Byte) (rest : List Event) :
    ∃ u', received w u ((vs.map (dataOnBus w)).flatten ++ rest) =
      (vs.map fun v => (true, v)) ++ received w u' rest := by
  induction vs generalizing u with
  | nil => exact ⟨u, rfl⟩
  | cons v vs ih =>
    obtain ⟨u₁, h₁⟩ := received_byte w u true v ((vs.map (dataOnBus w)).flatten ++ rest)
    obtain ⟨u₂, h₂⟩ := ih u₁
    refine ⟨u₂, ?_⟩
    rw [h₂] at h₁
    simpa [dataOnBus] using h₁

/-- PRINT_LINE's events as two command runs and two data runs. -/
theorem printLineEvents_eq (w : TransferWidth) (row : Byte) (text : List Byte) : printLineEvents w row text =
    commandsOnBus w [(if row = 1 then 0xC0 else 0x80, tCmdUs)] ++
      (((List.replicate 40 0x20).map (dataOnBus w)).flatten ++
        (commandsOnBus w [(if row = 1 then 0xC0 else 0x80, tCmdUs)] ++ ((text.map (dataOnBus w)).flatten ++ []))) := by
  rw [List.map_replicate]
  simp only [printLineEvents, commandsOnBus, List.map_cons, List.map_nil, List.flatten_cons, List.flatten_nil,
    List.append_nil, List.append_assoc]

theorem received_printLineEvents (w : TransferWidth) (u : BusView) (row : Byte) (text : List Byte) :
    received w u (printLineEvents w row text) =
      (false, if row = 1 then 0xC0 else 0x80) :: List.replicate 40 (true, 0x20) ++
        (false, if row = 1 then 0xC0 else 0x80) :: text.map fun v => (true, v) := by
  rw [printLineEvents_eq]
  obtain ⟨u₁, h₁⟩ := received_commandsOnBus w u [(if row = 1 then 0xC0 else 0x80, tCmdUs)]
    (((List.replicate 40 0x20).map (dataOnBus w)).flatten ++
      (commandsOnBus w [(if row = 1 then 0xC0 else 0x80, tCmdUs)] ++ ((text.map (dataOnBus w)).flatten ++ [])))
  obtain ⟨u₂, h₂⟩ := received_dataRun w u₁ (List.replicate 40 0x20)
    (commandsOnBus w [(if row = 1 then 0xC0 else 0x80, tCmdUs)] ++ ((text.map (dataOnBus w)).flatten ++ []))
  obtain ⟨u₃, h₃⟩ := received_commandsOnBus w u₂ [(if row = 1 then 0xC0 else 0x80, tCmdUs)]
    ((text.map (dataOnBus w)).flatten ++ [])
  obtain ⟨u₄, h₄⟩ := received_dataRun w u₃ text []
  rw [h₁, h₂, h₃, h₄, received_nil, List.map_replicate]
  simp only [List.map_cons, List.map_nil, List.append_nil, List.cons_append, List.nil_append]

/-- Settles O52: the events each operation adds, and what the receiver takes from them. -/
theorem receiverReadsTheBytesSent : Obligations.ReceiverReadsTheBytesSent := by
  unfold Obligations.ReceiverReadsTheBytesSent
  intro s t u es htrace
  refine ⟨fun v hs he => ?command, fun v hs he => ?data, fun hs he => ?init, fun text row hs hr he => ?text⟩
  case command =>
    obtain ⟨u', h⟩ := received_byte s.settings.dataTransBits u false v []
    rw [List.append_nil, received_nil] at h
    rw [sendCommand_added htrace hs he, commandOnBus, h]
  case data =>
    obtain ⟨u', h⟩ := received_byte s.settings.dataTransBits u true v []
    rw [List.append_nil, received_nil] at h
    rw [sendData_added htrace hs he, dataOnBus, h]
  case init =>
    obtain ⟨u', h⟩ := received_commandsOnBus s.settings.dataTransBits u (initSteps s.settings) []
    rw [List.append_nil, received_nil] at h
    rw [init_added htrace hs he, ← List.singleton_append, received_wait, h]
    rfl
  case text =>
    rw [printLine_added htrace hr hs he, received_printLineEvents]

/-! ## Durations (R246) -/

theorem minDuration_append (a b : List Event) : minDuration (a ++ b) = minDuration a + minDuration b := by
  induction a with
  | nil => exact (Nat.zero_add _).symm
  | cons e a ih =>
    cases e with
    | wait us => simp only [List.cons_append, minDuration, ih, Nat.add_assoc]
    | pin sig b => simp only [List.cons_append, minDuration, ih]

/-- The time of one byte, one transfer or two, of 101 us each. -/
def byteTime (w : TransferWidth) : Nat := if w = .eight then 101 else 202

theorem minDuration_commandOnBus (w : TransferWidth) (v : Byte) : minDuration (commandOnBus w v) = byteTime w := by
  cases w <;> rfl

theorem minDuration_dataOnBus (w : TransferWidth) (v : Byte) : minDuration (dataOnBus w v) = byteTime w := by
  cases w <;> rfl

theorem minDuration_commandsOnBus (w : TransferWidth) (steps : List (Byte × Nat)) :
    minDuration (commandsOnBus w steps) = steps.length * byteTime w + (steps.map Prod.snd).sum := by
  induction steps with
  | nil => simp [commandsOnBus, minDuration]
  | cons p steps ih =>
    have head : commandsOnBus w (p :: steps) = commandOnBus w p.1 ++ ([.wait p.2] ++ commandsOnBus w steps) := by
      simp [commandsOnBus]
    rw [head, minDuration_append, minDuration_append, minDuration_commandOnBus, ih]
    simp only [minDuration, List.length_cons, List.map_cons, List.sum_cons]
    ring

theorem minDuration_dataRun (w : TransferWidth) (vs : List Byte) :
    minDuration ((vs.map (dataOnBus w)).flatten) = vs.length * byteTime w := by
  induction vs with
  | nil => simp [minDuration]
  | cons v vs ih =>
    rw [List.map_cons, List.flatten_cons, minDuration_append, minDuration_dataOnBus, ih, List.length_cons]
    ring

/-- Settles O53: the bytes and the waits of each operation, in both modes. -/
theorem minimumDurations : Obligations.MinimumDurations := by
  unfold Obligations.MinimumDurations
  intro s t es htrace
  refine ⟨fun hs he => ?init, fun hs he => ?clear, fun v hs he => ?data, fun row hr hs he => ?line⟩
  case init =>
    have waits : ((initSteps s.settings).map Prod.snd).sum = 8360 := by
      simp [initSteps, tW1, tW2, tW3, tCmdUs, tLong]
    have commands : (initSteps s.settings).length = 8 := rfl
    rw [init_added htrace hs he, minDuration, minDuration_commandsOnBus, waits, commands, byteTime]
    split <;> rfl
  case clear =>
    rw [clear_added htrace hs he, minDuration_commandsOnBus, byteTime]
    split <;> rfl
  case data => rw [sendData_added htrace hs he, minDuration_dataOnBus, byteTime]
  case line =>
    rw [clearLine_added htrace hr hs he, minDuration_append, minDuration_commandsOnBus, minDuration_dataRun,
      List.length_replicate, byteTime, List.length_singleton, List.map_singleton, List.sum_singleton]
    split <;> rfl

end Sys2Proof.Machine
end
